-- ==== Sys2Proof/Word.lean ====
section
/-! DEFINITION. The word types of the KX7 model and their plainest arithmetic (spec 00, R2, R3, R6). -/

namespace Sys2Proof

/-- A 64-bit scalar register, CSR, address or E-word (R44, R81). -/
abbrev Word := BitVec 64

/-- One byte of memory (R3). -/
abbrev Byte := BitVec 8

/-- A scalar register number x0 to x31 (R8, R44). -/
abbrev Reg := Fin 32

/-- `x[hi:lo]` of R6, as an unsigned value. -/
def bits (x hi lo : Nat) : Nat := x / 2 ^ lo % 2 ^ (hi + 1 - lo)

/-- One bit of a number, R3. -/
def bit (x i : Nat) : Bool := x / 2 ^ i % 2 == 1

/-- A truth value as the digit 1 or 0. -/
def flag (b : Bool) : Nat := if b then 1 else 0

/-- The two's-complement reading of a w-bit pattern (R63). -/
def signedOf (w x : Nat) : Int := if x % 2 ^ w < 2 ^ (w - 1) then ((x % 2 ^ w : Nat) : Int) else ((x % 2 ^ w : Nat) : Int) - 2 ^ w

/-- The w-bit pattern of an integer, modulo 2^w (R63). -/
def patternOf (w : Nat) (x : Int) : Nat := (x % (2 ^ w : Int)).toNat

/-- A word from a number, modulo 2^64. -/
def word (x : Nat) : Word := BitVec.ofNat 64 x

/-- A number's n little-endian bytes (R3). -/
def bytesOf : Nat → Nat → List Byte
  | 0, _ => []
  | n + 1, x => BitVec.ofNat 8 x :: bytesOf n (x / 256)

/-- The number that little-endian bytes spell (R3). -/
def ofBytes : List Byte → Nat
  | [] => 0
  | b :: bs => b.toNat + 256 * ofBytes bs

/-- Replace the value at a key of an association list, or add it. -/
def assocSet {α β : Type} [BEq α] (l : List (α × β)) (a : α) (b : β) : List (α × β) :=
  match l with
  | [] => [(a, b)]
  | (x, y) :: r => if x == a then (a, b) :: r else (x, y) :: assocSet r a b

/-- Remove a key from an association list. -/
def assocErase {α β : Type} [BEq α] (l : List (α × β)) (a : α) : List (α × β) :=
  match l with
  | [] => []
  | (x, y) :: r => if x == a then assocErase r a else (x, y) :: assocErase r a

/-- Add a number to a strictly rising list. -/
def sortedInsert : List Nat → Nat → List Nat
  | [], a => [a]
  | x :: r, a => if a < x then a :: x :: r else if a = x then x :: r else x :: sortedInsert r a

/-- Remove a number from a list. -/
def listErase : List Nat → Nat → List Nat
  | [], _ => []
  | x :: r, a => if x = a then listErase r a else x :: listErase r a

/-- Replace one entry of a list by its index; an index past the end changes nothing. -/
def listPut {α : Type} : List α → Nat → α → List α
  | [], _, _ => []
  | _ :: r, 0, a => a :: r
  | x :: r, n + 1, a => x :: listPut r n a

/-- Remove one entry of a list by its index. -/
def listDrop1 {α : Type} : List α → Nat → List α
  | [], _ => []
  | _ :: r, 0 => r
  | x :: r, n + 1 => x :: listDrop1 r n

end Sys2Proof
end

