-- ==== Sys2Proof/Syntax.lean ====
section
/-! DEFINITION. The instructions and events of the module as data (spec 08, and the rows of spec/opcode_table.json). -/

namespace Sys2Proof

/-- What moves in one step: a hart of a core, or the firmware core of a quadrant (R11, R323). -/
inductive Agent where
  /-- Hart `h` of the core with CID `cid`. -/
  | hart (cid h : Nat)
  /-- The firmware core of quadrant `q`. -/
  | fw (q : Nat)
  deriving DecidableEq, Repr

/-- The element types of R144, in code order. -/
inductive EType where
  | f64 | f32 | f16 | bf16 | e4m3 | e5m2 | e2m1 | i4 | i8 | i16 | i32 | i64 | n8 | n16 | n32 | n64
  deriving DecidableEq, Repr

/-- The fields of an E-word, R143; the major is the constructor. -/
structure EWord where
  vd : BitVec 6
  va : BitVec 6
  vb : BitVec 6
  vc : BitVec 6
  ca : Bool
  cb : Bool
  cc : Bool
  k : BitVec 3
  pol : Bool
  sh : Bool
  ty : BitVec 4
  rm : BitVec 3
  sg : BitVec 3
  xs : Bool
  fn : BitVec 13
  deriving DecidableEq, Repr

/-- The trap causes of R297. -/
inductive Cause where
  | illegal | privInsn | privCsr | misaligned | windowStraddle | addrHole | addrProt | xlateFault | tierAccess
  | syscall | userTrap | matoff | matSource | matRing | sparseMeta | deferred | reduceState | stepWindow | staleHalo
  | gridDesc | gridFull | gridHandle | gridBlock | gridBusy | syncUninit | syncOverflow | copyParam | copyAbort
  | remoteAccess | remoteLength | spawnFull | heapFree | loopRange | poison
  | msgNohandler | inboxQuota | tierNoframe | ovfFault | ctxShape | ctxFormat | ctxSpace
  deriving DecidableEq, Repr

/-- A trap before its entry: the cause with the sub-cause and the two trap values (R295, R297). -/
structure Trap where
  cause : Cause
  sub : Nat := 0
  val : Word := 0
  val2 : Word := 0
  deriving DecidableEq, Repr

/-- A message record without its placement: the header fields of R92 and the payload bytes. -/
structure Msg where
  type : Nat
  sep : Nat
  scid : Nat
  units : Nat
  seq : Nat
  payload : List Byte
  deriving DecidableEq, Repr

/-- The contents of a vector request packet (R376); `bad` lists the elements whose data is poisoned (R360), and
`reserved` is the number that the Reserved fields hold, the lowest first. -/
structure VecReq where
  kind : Nat
  esz : Nat
  ixw : Bool
  byp : Bool
  vl : Nat
  base : Word
  stride : Word
  act : List Bool
  idx : List Nat
  data : List Nat
  bad : List Nat
  reserved : Nat
  deriving DecidableEq, Repr

/-- The operation a fabric request asks for (R374, R376, R381). -/
inductive ReqOp where
  /-- A read of `n` bytes: a remote load, an RGET row or a row of a remote gather. -/
  | load (addr : Word) (n : Nat)
  /-- A masked write: a combining-buffer line, an RPUT packet or a row of a remote scatter; `bad` lists the bytes whose
  source is poisoned (R360). -/
  | store (addr : Word) (data : List (Option Byte)) (bad : List Nat)
  /-- RATOM (R252). -/
  | atomic (op : BitVec 4) (dbl : Bool) (addr a b : Word)
  /-- A remote full/empty operation (R256): op 0 LDFE, 1 STFE, 2 FESET, 3 FECLR. -/
  | fe (op : Nat) (addr v : Word)
  /-- ARRIVE or a piece's contribution at the token's endpoint (R88, R255). -/
  | contribute (tok : Word) (n : Nat)
  /-- SGEN, or the read of an AWAIT, at the token's endpoint (R253, R255). -/
  | syncRead (tok : Word)
  /-- A waiter registration (R91). -/
  | register (tok : Word)
  /-- A wake notice (R91). -/
  | wake (gran : Nat)
  /-- A message (R260). -/
  | msg (dcid : Nat) (m : Msg)
  /-- A vector request (R376). -/
  | vec (v : VecReq)
  /-- A halo push toward another endpoint (R127): the grid key, the global block, the region, the step and its elements as
  (offset in the frame, bytes, poisoned). `part` is twice the number of the source among the region's sources, plus one in a packet
  that is not the push's last; `sn` is the number its source gave the push, which tells a push that is sent again from a later one. -/
  | push (sn key blk region part step : Nat) (els : List (Nat × List Byte × Bool))
  deriving DecidableEq, Repr

/-- A message with the CID of its target core (R92, R260). -/
structure Delivery where
  cid : Nat
  msg : Msg
  deriving DecidableEq, Repr

/-- A direction of a port's session: the one whose sender is this device, or its peer (R383). -/
structure KeySide where
  port : Nat
  sender : Bool
  deriving DecidableEq, Repr

/-- A request as it arrives from the fabric, with its virtual channel and its source (R374, R376, R377, R379). -/
structure Req where
  vc : Nat
  rid : Nat
  sep : Nat
  spart : Nat
  scid : Nat
  seq : Nat
  op : ReqOp
  deriving DecidableEq, Repr

/-- The answers of a target (R374, VC1). -/
inductive Resp where
  /-- Bytes of a load, or of the active elements of a vector load in index order; `bad` lists those that are poisoned
  (R360). -/
  | data (bs : List Byte) (bad : List Nat)
  /-- The old value of an atomic or the word an LDFE took. -/
  | value (v : Word)
  /-- Done, with nothing to return. -/
  | ack
  /-- A full/empty operation is held at its home unit (R86). -/
  | held
  /-- The V and GEN fields of a sync word. -/
  | sync (v : Bool) (gen : Nat)
  deriving DecidableEq, Repr

/-- The algorithms of SPDM that the device offers (R382), and those of others. -/
inductive SpdmAlgorithm where
  | ecdsaP384
  | sha384
  | secp384r1
  | aes256gcm
  | other (n : Nat)
  deriving DecidableEq, Repr

/-- An evidence block (R382): the endpoint it names, its bytes, the device's public key with its signature, and the key of an LMS tree,
which the device's key certifies (R395), with its signature. -/
structure EvidenceBlock where
  sep : Nat
  bytes : List Byte
  ecdsaKey : Nat
  ecdsa : Nat
  lmsKey : Nat
  treeCert : Nat
  lms : Nat
  deriving DecidableEq, Repr

/-- Which party's result the accepted execution agrees with after a retry of the checking lane (R357). -/
inductive CheckRound where
  /-- W' = C' = C: the working lane erred. -/
  | working
  /-- W' = C' = W: the Chameleon lane erred. -/
  | chameleon
  /-- W' = C' equal to neither, or W' and C' differ. -/
  | both
  deriving DecidableEq, Repr

/-- Who makes a contribution (R88). -/
inductive Contributor where
  /-- A core's copy, ARRIVE or push. -/
  | core (cid : Nat)
  /-- The launch processor of a quadrant (DONEK). -/
  | launch (q : Nat)
  /-- The partition controller (CTOKEN). -/
  | controller
  /-- Another endpoint, bound to a partition of this device. -/
  | remote (ep part : Nat)
  deriving DecidableEq, Repr

/-- One firmware slot of the Eft's flash (R393, R394). -/
structure FwSlot where
  svn : Nat
  /-- The payloads: physical address and bytes (R391, R393). -/
  payloads : List (Nat × List Byte)
  /-- The SHA-384 hash of each payload in the manifest. -/
  hashes : List Nat
  /-- The ECDSA P-384 signature and the LMS signature of the manifest. -/
  ecdsa : Nat
  lms : Nat
  /-- The public keys under which they are verified. -/
  ecdsaKey : Nat
  lmsKey : Nat
  /-- The writing of the slot came to its end (R394). -/
  complete : Bool
  deriving DecidableEq, Repr

/-- A word that decodes to no instruction (R138, R142, R147, R148). -/
inductive BadWord where
  | sword (w : BitVec 32)
  | eword (w : Word)
  deriving DecidableEq, Repr

/-- THE INSTRUCTIONS: one constructor per row of spec/opcode_table.json. The first 113 are S-words (R137 to R140), the next
84 E-words (R143, R148); the rest are the steps of the table that no word encodes (spec 95), whose arguments say what the
spec leaves to time, to other endpoints or to the outside (log entry 3). -/
inductive Instr where
  /-- ADD (R162): Adds two scalar registers modulo 2^64 -/
  | add (d a b : Reg)
  /-- SUB (R162): Subtracts xb from xa modulo 2^64 -/
  | sub (d a b : Reg)
  /-- MUL (R162): Writes the low 64 bits of the signed product -/
  | mul (d a b : Reg)
  /-- MULH (R162): Writes the high 64 bits of the signed 128-bit product -/
  | mulh (d a b : Reg)
  /-- MULHN (R162): Writes the high 64 bits of the unsigned 128-bit product -/
  | mulhn (d a b : Reg)
  /-- DIV (R162): Signed division rounded toward zero, with fixed results for zero divisors and overflow -/
  | div (d a b : Reg)
  /-- DIVN (R162): Unsigned division, giving all ones for a zero divisor -/
  | divn (d a b : Reg)
  /-- REM (R162): Signed remainder of truncating division -/
  | rem (d a b : Reg)
  /-- REMN (R162): Unsigned remainder -/
  | remn (d a b : Reg)
  /-- AND (R162): Bitwise AND of two registers -/
  | and (d a b : Reg)
  /-- OR (R162): Bitwise OR of two registers -/
  | or (d a b : Reg)
  /-- XOR (R162): Bitwise XOR of two registers -/
  | xor (d a b : Reg)
  /-- SLL (R162): Shifts left by xb[5:0] -/
  | sll (d a b : Reg)
  /-- SRL (R162): Logical right shift by xb[5:0] -/
  | srl (d a b : Reg)
  /-- SRA (R162): Arithmetic right shift by xb[5:0], rounding toward minus infinity -/
  | sra (d a b : Reg)
  /-- SLLI (R162): Shifts left by an immediate amount 0..63 -/
  | slli (d a : Reg) (n : BitVec 6)
  /-- SRLI (R162): Logical right shift by an immediate amount -/
  | srli (d a : Reg) (n : BitVec 6)
  /-- SRAI (R162): Arithmetic right shift by an immediate amount -/
  | srai (d a : Reg) (n : BitVec 6)
  /-- SLT (R162): Sets xd to 1 if xa is less than xb, signed -/
  | slt (d a b : Reg)
  /-- SLTN (R162): Sets xd to 1 if xa is less than xb, unsigned -/
  | sltn (d a b : Reg)
  /-- MIN (R162): Signed minimum -/
  | min (d a b : Reg)
  /-- MAX (R162): Signed maximum -/
  | max (d a b : Reg)
  /-- MINN (R162): Unsigned minimum -/
  | minn (d a b : Reg)
  /-- MAXN (R162): Unsigned maximum -/
  | maxn (d a b : Reg)
  /-- CLZ (R162): Counts leading zero bits of xa -/
  | clz (d a : Reg)
  /-- CTZ (R162): Counts trailing zero bits of xa -/
  | ctz (d a : Reg)
  /-- POPC (R162): Counts the one bits of xa -/
  | popc (d a : Reg)
  /-- ADDI (R163): Adds a sign-extended 15-bit immediate -/
  | addi (d a : Reg) (i : BitVec 15)
  /-- ANDI (R163): ANDs with a sign-extended immediate -/
  | andi (d a : Reg) (i : BitVec 15)
  /-- ORI (R163): ORs with a sign-extended immediate -/
  | ori (d a : Reg) (i : BitVec 15)
  /-- XORI (R163): XORs with a sign-extended immediate -/
  | xori (d a : Reg) (i : BitVec 15)
  /-- SLTI (R163): Signed compare with a sign-extended immediate -/
  | slti (d a : Reg) (i : BitVec 15)
  /-- LD_B (R165): Loads one byte, sign-extended -/
  | ldB (d a : Reg) (i : BitVec 15)
  /-- LD_BN (R165): Loads one byte, zero-extended -/
  | ldBn (d a : Reg) (i : BitVec 15)
  /-- LD_H (R165): Loads two bytes, sign-extended -/
  | ldH (d a : Reg) (i : BitVec 15)
  /-- LD_HN (R165): Loads two bytes, zero-extended -/
  | ldHn (d a : Reg) (i : BitVec 15)
  /-- LD_W (R165): Loads four bytes, sign-extended -/
  | ldW (d a : Reg) (i : BitVec 15)
  /-- LD_WN (R165): Loads four bytes, zero-extended -/
  | ldWn (d a : Reg) (i : BitVec 15)
  /-- LD_D (R165): Loads eight bytes -/
  | ldD (d a : Reg) (i : BitVec 15)
  /-- ST_B (R165): Closes an open strip and stores one byte -/
  | stB (d a : Reg) (i : BitVec 15)
  /-- ST_H (R165): Closes an open strip and stores two bytes -/
  | stH (d a : Reg) (i : BitVec 15)
  /-- ST_W (R165): Closes an open strip and stores four bytes -/
  | stW (d a : Reg) (i : BitVec 15)
  /-- ST_D (R165): Closes an open strip and stores eight bytes -/
  | stD (d a : Reg) (i : BitVec 15)
  /-- BEQ (R171): Branches when xa equals xb -/
  | beq (a b : Reg) (o : BitVec 15)
  /-- BNE (R171): Branches when xa differs from xb -/
  | bne (a b : Reg) (o : BitVec 15)
  /-- BLT (R171): Branches when xa is less than xb, signed -/
  | blt (a b : Reg) (o : BitVec 15)
  /-- BGE (R171): Branches when xa is at least xb, signed -/
  | bge (a b : Reg) (o : BitVec 15)
  /-- BLTN (R171): Branches when xa is less than xb, unsigned -/
  | bltn (a b : Reg) (o : BitVec 15)
  /-- BGEN (R171): Branches when xa is at least xb, unsigned -/
  | bgen (a b : Reg) (o : BitVec 15)
  /-- BSA (R264): Branches if the send allowance of group g is at least xb, without drawing on it -/
  | bsa (g : Fin 16) (b : Reg) (o : BitVec 15)
  /-- LOOPV (R182): Decrements the count by VL, shortens VL and branches while elements remain -/
  | loopv (a : Reg) (o : BitVec 15)
  /-- JAL (R172): Writes the return address and jumps PC-relative -/
  | jal (d : Reg) (o : BitVec 20)
  /-- JALR (R172): Writes the return address and jumps to a register-relative target, faulting if misaligned -/
  | jalr (d a : Reg) (i : BitVec 15)
  /-- LUI (R164): Loads a sign-extended 20-bit immediate shifted left by 15 -/
  | lui (d : Reg) (i : BitVec 20)
  /-- AIPC (R164): Adds a shifted 20-bit immediate to the PC -/
  | aipc (d : Reg) (i : BitVec 20)
  /-- VFETCH (R183): Starts an element block at a PC-relative address, recording its snapshot and state -/
  | vfetch (o : BitVec 20)
  /-- VFETCH_REG (R183): Starts an element block at a register-relative address -/
  | vfetchReg (a : Reg) (i : BitVec 15)
  /-- LOOPST (R184): Opens a software-pipelined loop or performs its closing step -/
  | loopst (a : Reg) (s : BitVec 5) (o : BitVec 15)
  /-- SETVL (R178): Closes any open strip, sets VL and opens a strip with a new checkpoint -/
  | setvl (d a : Reg) (w : BitVec 3)
  /-- SETTL (R180): Sets TL to the minimum of xa and MVLM -/
  | settl (d a : Reg)
  /-- STRIPEND (R181): Closes an open strip, committing its pending stores -/
  | stripend
  /-- CSRR (R174): Reads a CSR into xd -/
  | csrr (d : Reg) (c : BitVec 12)
  /-- CSRW (R174): Closes the strip and writes xa to a CSR -/
  | csrw (a : Reg) (c : BitVec 12)
  /-- CSRS (R174): Sets CSR bits from xa -/
  | csrs (a : Reg) (c : BitVec 12)
  /-- CSRC (R174): Clears CSR bits from xa -/
  | csrc (a : Reg) (c : BitVec 12)
  /-- SCALL (R175): Closes the strip and traps with cause SYSCALL -/
  | scall (a : Reg)
  /-- TRAP (R175): Closes the strip and traps with cause USER_TRAP -/
  | trap (a : Reg)
  /-- ERET (R300): Returns from a trap, restoring the lazy record and resuming or discarding suspended blocks -/
  | eret
  /-- WFM (R300): Closes the strip and waits for a message, a pending trap or a pre-emption request -/
  | wfm
  /-- FADD (R167): Scalar floating-point addition with one rounding -/
  | fadd (d a b : Reg) (r : BitVec 3) (z : Bool)
  /-- FSUB (R167): Scalar floating-point subtraction -/
  | fsub (d a b : Reg) (r : BitVec 3) (z : Bool)
  /-- FMUL (R167): Scalar floating-point multiplication -/
  | fmul (d a b : Reg) (r : BitVec 3) (z : Bool)
  /-- FDIV (R167): Scalar floating-point division -/
  | fdiv (d a b : Reg) (r : BitVec 3) (z : Bool)
  /-- FSQRT (R167): Scalar floating-point square root -/
  | fsqrt (d a : Reg) (r : BitVec 3) (z : Bool)
  /-- FMIN (R167): Selects the smaller floating-point operand -/
  | fmin (d a b : Reg) (z : Bool)
  /-- FMAX (R167): Selects the larger floating-point operand -/
  | fmax (d a b : Reg) (z : Bool)
  /-- FCMP (R168): Compares two floating-point operands by the condition in sub -/
  | fcmp (d a b : Reg) (z : Bool) (c : BitVec 2)
  /-- FCVT (R169): Converts to a floating-point destination from FP or integer -/
  | fcvt (d a : Reg) (r : BitVec 3) (z : Bool) (c : BitVec 2)
  /-- FCVT_TO_INT (R169): Converts a floating-point value to a 64-bit integer -/
  | fcvtToInt (d a : Reg) (r : BitVec 3) (z : Bool) (c : BitVec 2)
  /-- FMA (R170): Fused multiply-add with one rounding -/
  | fma (d a b c : Reg) (r : BitVec 3) (z : Bool)
  /-- CP (R248): Checks a parameter block and starts a box copy in the copy engine -/
  | cp (d p : Reg)
  /-- CP_G (R249): Starts a gather copy with row numbers from a vector register -/
  | cpG (d p : Reg) (v : BitVec 6) (x q : Bool) (k : BitVec 3)
  /-- CP_S (R249): Starts a scatter copy with row numbers from a vector register -/
  | cpS (d p : Reg) (v : BitVec 6) (x q : Bool) (k : BitVec 3)
  /-- RGET (R247): Starts a copy from another endpoint -/
  | rget (d p e : Reg)
  /-- RPUT (R247): Starts a copy to another endpoint -/
  | rput (d p e : Reg)
  /-- RATOM (R252): Sends an atomic to the home unit of a word at another endpoint -/
  | ratom (d a b : Reg) (o : BitVec 2) (z : Bool) (p : BitVec 4)
  /-- AWAIT (R253): Completes if its token is signalled, otherwise saves the live state and awaits the token -/
  | await (k m : Reg) (g : Bool)
  /-- AWAITANY (R254): Waits for any of n tokens or, optionally, a new inbox message -/
  | awaitany (d l m : Reg) (n : BitVec 6) (i g : Bool)
  /-- SINIT (R255): Initialises a sync word, wakes its waiters and returns its token -/
  | sinit (d a b : Reg)
  /-- EXPECT (R255): Adds to a sync word's target -/
  | expect (a b : Reg)
  /-- ARRIVE (R255): Releases and contributes its operand to a sync word -/
  | arrive (k b : Reg)
  /-- SGEN (R255): Reads a sync word's generation into a token -/
  | sgen (d k : Reg)
  /-- TKMAKE (R255): Builds a token from a local address and a generation -/
  | tkmake (d a b : Reg)
  /-- LDFE (R256): Reads a full word and empties it, or awaits it filling -/
  | ldfe (d a e : Reg) (r : Bool)
  /-- STFE (R256): Writes an empty word and fills it, or awaits it emptying -/
  | stfe (s a e : Reg) (r : Bool)
  /-- FESET (R256): Sets a word's full/empty bit to full -/
  | feset (a e : Reg) (r : Bool)
  /-- FECLR (R256): Sets a word's full/empty bit to empty -/
  | feclr (a e : Reg) (r : Bool)
  /-- AMO (R258): Performs an atomic read-modify-write at the word's home unit -/
  | amo (d a b : Reg) (s : BitVec 3) (o : BitVec 2) (z : Bool) (p : BitVec 4)
  /-- FENCE_REL (R259): Release fence: completes when every earlier access is performed -/
  | fenceRel (s : BitVec 3)
  /-- FENCE_ACQ (R259): Acquire fence: holds later accesses until earlier loads return -/
  | fenceAcq (s : BitVec 3)
  /-- FENCE_AR (R259): Acquire-release fence -/
  | fenceAr (s : BitVec 3)
  /-- FENCE_SC (R259): Sequentially consistent fence ordered in fence order -/
  | fenceSc (s : BitVec 3)
  /-- LSYNC (R259): Core-scope sequentially consistent fence -/
  | lsync
  /-- MSEND (R260): Builds a message and hands it to the fabric interface -/
  | msend (t a : Reg) (u : BitVec 2) (y : BitVec 8)
  /-- SPAWN (R261): Creates a coroutine of the caller's gang -/
  | spawn (d a : Reg) (n : BitVec 5)
  /-- YIELD (R262): Gives up the hart if another coroutine is ready -/
  | yield
  /-- CEXIT (R262): Retires the coroutine and starts gang exit if it was the last -/
  | cexit
  /-- GALLOC (R263): Allocates from the gang heap -/
  | galloc (d s : Reg) (l : BitVec 5)
  /-- GFREE (R263): Frees a range of the gang heap -/
  | gfree (a : Reg)
  /-- GDECL (R265): Declares a grid's local blocks and returns a handle -/
  | gdecl (d a : Reg)
  /-- GSTEP (R127): Publishes a block's step and lets the Skink read its strips -/
  | gstep (g j : Reg)
  /-- GWAIT (R266): Waits until a block's ghost-complete step reaches s -/
  | gwait (g j : Reg)
  /-- GDROP (R267): Waits for the grid's pushes to land and frees its handle -/
  | gdrop (g : Reg)
  /-- VNOP (R209): Element-word with no effect -/
  | vnop (w : EWord)
  /-- VSTOP (R141): Ends an element block, committing its stores when no strip is open -/
  | vstop (w : EWord)
  /-- VADD (R190): Elementwise addition -/
  | vadd (w : EWord)
  /-- VSUB (R190): Elementwise subtraction -/
  | vsub (w : EWord)
  /-- VMUL (R190): Elementwise multiplication -/
  | vmul (w : EWord)
  /-- VFMA (R190): Elementwise fused multiply-add -/
  | vfma (w : EWord)
  /-- VFMS (R190): Elementwise fused multiply-subtract -/
  | vfms (w : EWord)
  /-- VFNMA (R190): Elementwise c minus a times b with one rounding -/
  | vfnma (w : EWord)
  /-- VDIV (R190): Elementwise correctly rounded division -/
  | vdiv (w : EWord)
  /-- VSQRT (R190): Elementwise correctly rounded square root -/
  | vsqrt (w : EWord)
  /-- VRSQRT (R77): Elementwise FP32 reciprocal square root -/
  | vrsqrt (w : EWord)
  /-- VRCP (R77): Elementwise FP32 reciprocal -/
  | vrcp (w : EWord)
  /-- VEXP2 (R77): Elementwise FP32 base-2 exponential -/
  | vexp2 (w : EWord)
  /-- VLOG2 (R77): Elementwise FP32 base-2 logarithm -/
  | vlog2 (w : EWord)
  /-- VMIN (R191): Elementwise minimum -/
  | vmin (w : EWord)
  /-- VMAX (R191): Elementwise maximum -/
  | vmax (w : EWord)
  /-- VABS (R191): Elementwise absolute value -/
  | vabs (w : EWord)
  /-- VNEG (R191): Elementwise negation -/
  | vneg (w : EWord)
  /-- VMULH (R190): Elementwise high half of the integer product -/
  | vmulh (w : EWord)
  /-- VSADD (R190): Elementwise saturating integer addition -/
  | vsadd (w : EWord)
  /-- VSSUB (R190): Elementwise saturating integer subtraction -/
  | vssub (w : EWord)
  /-- VSHL (R193): Elementwise left shift -/
  | vshl (w : EWord)
  /-- VSHR (R193): Elementwise logical right shift -/
  | vshr (w : EWord)
  /-- VSRA (R193): Elementwise arithmetic right shift -/
  | vsra (w : EWord)
  /-- VAND (R193): Elementwise bitwise AND -/
  | vand (w : EWord)
  /-- VOR (R193): Elementwise bitwise OR -/
  | vor (w : EWord)
  /-- VXOR (R193): Elementwise bitwise XOR -/
  | vxor (w : EWord)
  /-- VNOT (R193): Elementwise bitwise complement -/
  | vnot (w : EWord)
  /-- VCLZ (R193): Elementwise leading-zero count -/
  | vclz (w : EWord)
  /-- VPOPC (R193): Elementwise population count -/
  | vpopc (w : EWord)
  /-- VCMP (R194): Elementwise compare into a mask register -/
  | vcmp (w : EWord)
  /-- KAND (R196): Mask AND -/
  | kand (w : EWord)
  /-- KOR (R196): Mask OR -/
  | kor (w : EWord)
  /-- KXOR (R196): Mask XOR -/
  | kxor (w : EWord)
  /-- KNOT (R196): Mask complement -/
  | knot (w : EWord)
  /-- KSBF (R196): Sets mask bits before the first set bit -/
  | ksbf (w : EWord)
  /-- KSIF (R196): Sets mask bits up to and including the first set bit -/
  | ksif (w : EWord)
  /-- KSOF (R196): Sets only the first set bit -/
  | ksof (w : EWord)
  /-- KPOPC (R196): Writes the count of active set mask bits to a scalar register -/
  | kpopc (w : EWord)
  /-- KFIRST (R196): Writes the index of the first active set mask bit to a scalar register -/
  | kfirst (w : EWord)
  /-- VMERGE (R197): Merges two vectors under a mask -/
  | vmerge (w : EWord)
  /-- VMERGE_F (R198): Raises DEFERRED for kept faulted elements, otherwise merges and clears FMASK -/
  | vmergeF (w : EWord)
  /-- VSLIDEUP (R200): Slides elements up by s -/
  | vslideup (w : EWord)
  /-- VSLIDEDN (R200): Slides elements down by s -/
  | vslidedn (w : EWord)
  /-- VPERM (R200): Permutes elements by an index vector -/
  | vperm (w : EWord)
  /-- VCOMPRESS (R200): Packs the selected elements to the front -/
  | vcompress (w : EWord)
  /-- VEXPAND (R200): Spreads leading elements to the selected positions -/
  | vexpand (w : EWord)
  /-- VIOTA (R200): Writes prefix counts of mask bits -/
  | viota (w : EWord)
  /-- VID (R200): Writes element indices -/
  | vid (w : EWord)
  /-- VBCAST (R200): Broadcasts element 0 or a scalar -/
  | vbcast (w : EWord)
  /-- VMOVX (R200): Moves one element to a scalar register -/
  | vmovx (w : EWord)
  /-- VINS (R200): Inserts a scalar into element 0 -/
  | vins (w : EWord)
  /-- VREDSUM (R202): Sum reduction in the fixed order into vd[0] -/
  | vredsum (w : EWord)
  /-- VREDMAX (R202): Maximum reduction -/
  | vredmax (w : EWord)
  /-- VREDMIN (R202): Minimum reduction -/
  | vredmin (w : EWord)
  /-- VSCAN_ADD (R203): Inclusive prefix sum -/
  | vscanAdd (w : EWord)
  /-- VSCAN_MAX (R203): Inclusive prefix maximum -/
  | vscanMax (w : EWord)
  /-- VCVT (R206): Elementwise type conversion -/
  | vcvt (w : EWord)
  /-- VSCALE (R207): MX block-scaled decode or encode -/
  | vscale (w : EWord)
  /-- VLD (R215): Unit-stride vector load -/
  | vld (w : EWord)
  /-- VLDS (R212): Strided vector load, local or remote -/
  | vlds (w : EWord)
  /-- VLDX (R212): Indexed vector load, local or remote -/
  | vldx (w : EWord)
  /-- VLDFF (R217): Fault-first load that shortens VL at the first faulting element after 0 -/
  | vldff (w : EWord)
  /-- VLDG (R226): Step-tagged grid load that checks ghost tags -/
  | vldg (w : EWord)
  /-- VPREF (R228): Prefetches lines into L2 or the memory-side cache -/
  | vpref (w : EWord)
  /-- VST (R219): Unit-stride vector store into the pending queue -/
  | vst (w : EWord)
  /-- VSTS (R219): Strided vector store, local or remote -/
  | vsts (w : EWord)
  /-- VSTX (R219): Indexed vector store, local or remote -/
  | vstx (w : EWord)
  /-- VSTG (R227): Step-tagged grid store -/
  | vstg (w : EWord)
  /-- VSQ_COMMIT (R220): Commits pending stores under VL and mask and discards the rest -/
  | vsqCommit (w : EWord)
  /-- VSQ_DROP (R221): Discards every pending store -/
  | vsqDrop (w : EWord)
  /-- MSTART (R230): Turns matrix mode on and zeroes tiles and latch -/
  | mstart (w : EWord)
  /-- MSTOP (R230): Turns matrix mode off and discards tiles and latch -/
  | mstop (w : EWord)
  /-- MZERO (R236): Zeroes a tile window -/
  | mzero (w : EWord)
  /-- OPA (R237): Accumulates outer products of A and the latch into a tile -/
  | opa (w : EWord)
  /-- OPS (R237): Subtracts outer products from a tile -/
  | ops (w : EWord)
  /-- OPA_SP (R238): Accumulates outer products with structured-sparse A -/
  | opaSp (w : EWord)
  /-- MLD (R239): Loads a tile window from memory -/
  | mld (w : EWord)
  /-- MST (R239): Stores a tile window as pending stores -/
  | mst (w : EWord)
  /-- MLATCH (R240): Loads the B latch -/
  | mlatch (w : EWord)
  /-- MROT (R241): Waits at the ring to rotate latches among the cluster's cores -/
  | mrot (w : EWord)
  /-- MMOV_V (R242): Moves a tile row or column into a vector register -/
  | mmovV (w : EWord)
  /-- VMOV_M (R242): Moves a vector register into a tile row or column -/
  | vmovM (w : EWord)
  /-- MCVT (R243): Converts tile elements in place -/
  | mcvt (w : EWord)
  /-- WAKE_NOTICE (R91): A wake notice makes a core re-test its waiters' tokens and ready those signalled -/
  | wakeNotice (cid gran : Nat)
  /-- WAITER_REREAD (R91): Every 1,024 cycles a core with no registration re-reads the sync word -/
  | waiterReread (cid gran : Nat)
  /-- CONTRIBUTE (R88): A contribution at a sync word's home unit adds to COUNT and may advance the generation -/
  | contribute (tok : Word) (n : Nat) (by_ : Contributor)
  /-- REMOTE_NACK (R225): A NACK arrives and raises REMOTE_ACCESS or aborts the copy -/
  | remoteNack (rid : Nat)
  /-- REMOTE_RESPONSE (R224): A response arrives and writes the waiting destination register -/
  | remoteResponse (rid : Nat) (p : Resp)
  /-- ACTIVATE (R344): Partition command that resets its cores, loads roots and makes it ACTIVE -/
  | activate (p : Nat)
  /-- DRAIN (R345): Partition command that stops, scrubs and resets the partition and stores a fault record -/
  | drain (p : Nat)
  /-- RESET (R344): Partition command that reloads roots of a DRAINED partition and makes it ACTIVE -/
  | resetPartition (p : Nat)
  /-- RELEASE (R344): Partition command that frees a DRAINED or FROZEN partition -/
  | release (p : Nat)
  /-- WAIT_SIGNALLED (R320): On a wake the walker finds the WAIT's token signalled and consumes the packet -/
  | waitSignalled (q n : Nat)
  /-- HANDLER_CREATE (R23): The head inbox message creates its handler coroutine or raises MSG_NOHANDLER -/
  | handlerCreate (cid : Nat)
  /-- OVERFLOW_MOVE (R95): The overflow engine moves the head message into the inbox when it fits -/
  | overflowMove (cid : Nat)
  /-- GENERATED_MSG_PLACE (R95): A held device-generated message is placed when overflow room appears -/
  | generatedMsgPlace (cid : Nat)
  /-- MESSAGE_RESEND (R96): A quota-NACKed message is resent once the source's allowance is restored -/
  | messageResend (n : Nat)
  /-- MESSAGE_ARRIVAL (R93): An arriving message is placed in the inbox, the overflow ring, or breaches the quota -/
  | messageArrival (r : Req) (m : Delivery)
  /-- CONTEXT_FETCH (R29): A spilled ready coroutine's context arrives back in the context cache -/
  | contextFetch (cid gid coid : Nat)
  /-- HART_SELECT (R30): A free hart chooses the next ready resident coroutine by class and ready time -/
  | hartSelect (cid h : Nat)
  /-- ASYNC_TRAP_TAKE (R298): A pending asynchronous trap is taken on EVHART at a boundary or by forced rollback -/
  | asyncTrapTake (cid : Nat)
  /-- PENDING_TRAP_DELIVER (R251): A COPY_ABORT or message REMOTE_ACCESS is delivered at the coroutine's next strip boundary or run -/
  | pendingTrapDeliver (a : Agent)
  /-- WFM_RESUME (R300): A waiting WFM continues once a message, trap or pre-emption request appears -/
  | wfmResume (a : Agent)
  /-- QUANTUM_SWITCH (R32): At the next strip boundary the coroutine is switched out with a full save -/
  | quantumSwitch (cid h : Nat)
  /-- PREEMPT_TAKE (R33): Pre-emption takes the coroutine at its next strip boundary, cutting back register copies -/
  | preemptTake (cid h : Nat)
  /-- PREEMPT (R304): CTXOP command that pre-empts a coroutine of the core -/
  | preempt (cid gid coid : Nat)
  /-- RESTORE (R304): CTXOP command that restores a pre-empted coroutine -/
  | restore (cid gid coid : Nat)
  /-- MOVE (R304): CTXOP command that moves a pre-empted coroutine's record to another core -/
  | move (cid gid coid : Nat)
  /-- DISCARD (R304): CTXOP command that retires a pre-empted coroutine without running it -/
  | discard (cid gid coid : Nat)
  /-- GANG_EXIT (R42): After copies and started pushes land, allocations are zero-filled and released and exit recorded -/
  | gangExit (gid : Nat)
  /-- SKINK_WRITE_LAND (R127): A halo push lands in a destination frame and sets the region's tag -/
  | skinkWriteLand (n : Nat)
  /-- COPY_PIECE_LAND (R248): A piece of a copy lands and contributes its bytes to the token word -/
  | copyPieceLand (n row skip len : Nat)
  /-- COPY_REWALK (R337): A copy held on a translation fault walks again after a store to its walk and continues -/
  | copyRewalk (n : Nat)
  /-- PAGE_IN_FRAME_RETRY (R338): A page-in waiting for a frame retries after PROD or POOL is stored -/
  | pageInFrameRetry (n : Nat)
  /-- PAGE_IN_COMPLETE (R339): The page is copied, the entry rewritten with T = 0 and held copies released -/
  | pageInComplete (n : Nat)
  /-- HELD_CONTRIBUTION_REWALK (R399): A held contribution walks again after a store to its walk or T entry and is made once reachable -/
  | heldContributionRewalk (n : Nat)
  /-- REMOTE_STORE_SEND (R225): A queued committed remote store leaves once its units are held -/
  | remoteStoreSend (cid : Nat)
  /-- UNALLOCATED_OPCODE (R139): An S-word or E-word whose major, fn or flags is unallocated is executed and raises ILLEGAL with no other effect -/
  | unallocatedOpcode (w : BadWord)
  /-- FETCH_FAULT (R135): An S-word fetch from a page with XK not 1, a window, a hole or a T page faults at that address -/
  | fetchFault (t : Trap)
  /-- REMOTE_REQUEST (R379): An arriving remote request is matched against BIND, translated and performed or NACKed -/
  | remoteRequest (r : Req)
  /-- VECTOR_REQUEST (R376): A vector request is checked and expanded at the target in index order -/
  | vectorRequest (r : Req) (v : VecReq)
  /-- REMOTE_ATOMIC_REQUEST (R381): A remote atomic packet executes once at the word's home unit -/
  | remoteAtomicRequest (r : Req)
  /-- KEY_UPDATE (R383): Both sides change keys at one flit, reset the counter and bump KEYEPOCH -/
  | keyUpdate (side : KeySide)
  /-- TEST_LEASE (R363): A lease falls due by time or score and withdraws the resource -/
  | testLease (kind index : Nat)
  /-- CHECKING_POINT (R232): An E-word's checked group is accepted or poisoned, releasing waiters and its read lease -/
  | checkingPoint (a : Agent) (rounds : List CheckRound)
  /-- HOST_WRITE (R386): A posted host write is performed in arrival order as a device-scope release -/
  | hostWrite (port addr : Nat) (data : List Byte)
  /-- FREEZE (R328): Pre-empts and images the named partitions into the safe tier, sealed -/
  | freeze (mask image : Nat)
  /-- TIMER (R326): FTIMER reaches FTCMP and event TIMER is raised once -/
  | timer (q : Nat)
  /-- WATCHDOG (R322): A queue's watchdog reaches WDLIMIT and the queue enters WDOG -/
  | watchdog (q n : Nat)
  /-- THAW (R330): Verifies and restores a freeze image onto a matching partition -/
  | thaw (image : Nat) (sealOk : Bool)
  /-- MROT_WITHDRAW (R241): An MROT waiting 4,096 cycles or reached by pre-emption is withdrawn and its strip rolls back -/
  | mrotWithdraw (a : Agent)
  /-- REMOTE_ACKNOWLEDGEMENT (R225): The target's acknowledgement of a sent remote store or combining-buffer line arrives at the source, releasing loads and fences that wait on it -/
  | remoteAcknowledgement (rid : Nat)
  /-- PRIORITY_PROMOTE (R31): Each 4,096 cycles of readiness raise a coroutine's current class by one -/
  | priorityPromote (cid gid coid : Nat)
  /-- QUANTUM_EXPIRE (R32): The running count reaches QUANTUM and a switch is requested or the count resets -/
  | quantumExpire (cid h : Nat)
  /-- ALLOWANCE_GRANT (R35): Returned units reach the source and go to the head waiting request, readying it when held -/
  | allowanceGrant (ep units : Nat)
  /-- ALLOWANCE_RESERVED_GRANT (R36): Each 64 fabric cycles the destination grants a waiting source its reserved unit -/
  | allowanceReservedGrant (ep : Nat)
  /-- COMBINE_FLUSH_TIMEOUT (R113): A combining-buffer line is sent 4,096 cycles after its first store -/
  | combineFlushTimeout (cid n : Nat)
  /-- LOCK (R384): Port command that freezes configuration and runs SPDM -/
  | lockPort (port : Nat)
  /-- START (R384): Port command that enables traffic once the session is established -/
  | startPort (port : Nat)
  /-- STOP (R384): Port command that erases keys and returns the port to CONFIG_UNLOCKED -/
  | stopPort (port : Nat)
  /-- PEER_WRITE (R384): A change of PORT.PEER is stored when unlocked and puts a locked port in ERROR -/
  | peerWrite (port peer : Nat)
  /-- GET_VERSION (R382): SPDM request for version -/
  | getVersion (port : Nat) (ok : Bool)
  /-- GET_CAPABILITIES (R382): SPDM request for capabilities -/
  | getCapabilities (port : Nat) (ok : Bool)
  /-- NEGOTIATE_ALGORITHMS (R382): SPDM algorithm negotiation -/
  | negotiateAlgorithms (port : Nat) (algs : List SpdmAlgorithm)
  /-- GET_DIGESTS (R382): SPDM request for certificate digests -/
  | getDigests (port : Nat) (ok : Bool)
  /-- GET_CERTIFICATE (R382): SPDM request for the certificate chain -/
  | getCertificate (port : Nat) (ok : Bool)
  /-- CHALLENGE (R382): SPDM challenge authentication -/
  | challenge (port : Nat) (ok : Bool)
  /-- GET_MEASUREMENTS (R382): SPDM request for measurements with the evidence block -/
  | getMeasurements (port : Nat) (peer : EvidenceBlock)
  /-- KEY_EXCHANGE (R382): SPDM ECDHE key exchange -/
  | keyExchange (port : Nat) (ok : Bool)
  /-- FINISH (R382): SPDM FINISH establishing the session -/
  | finish (port : Nat) (ok : Bool)
  /-- FLIT_RECEIVE (R383): A received flit is authenticated and decrypted, or puts the port in ERROR -/
  | flitReceive (port : Nat) (tagOk replayed : Bool)
  /-- LINK_RETRAIN (R384): A link retrain scores the port; three failures in succession put it in ERROR -/
  | linkRetrain (port : Nat) (ok : Bool)
  /-- HOST_READ (R386): A host read returns device memory with device-scope acquire -/
  | hostRead (port addr n : Nat)
  /-- HOST_LINK_UP (R387): A host port comes up and waiting tier traffic proceeds -/
  | hostLinkUp (port : Nat)
  /-- HOST_LINK_DOWN (R387): A host port goes down and its tier traffic moves to the other port or waits -/
  | hostLinkDown (port : Nat)
  /-- POWER_ON (R391): Power-on runs the module reset sequence -/
  | powerOn
  /-- RESET_MODULE (R391): Management command that runs the module reset and boot sequence -/
  | resetModule
  /-- COMMIT_SVN (R394): Raises the fused minimum SVN to the running SVN -/
  | commitSvn
  /-- FIRMWARE_UPDATE_WRITE (R394): Writes and verifies the inactive slot and marks it pending -/
  | firmwareUpdateWrite (image : FwSlot)
  /-- LOG_READ (R395): Reads the persistent log over the management interface -/
  | logRead (n : Nat)
  /-- SENSOR_READ (R396): Reports sensor values over the management interface -/
  | sensorRead (n : Nat)
  /-- SENSOR_SAMPLE (R396): The Eft samples its sensors on its own clock -/
  | sensorSample (n value : Nat)
  /-- POD_KEY_PROVISION (R388): The pod manager gives the Eft the pod sealing key over SPDM -/
  | podKeyProvision (key : Nat)
  /-- EID_ASSIGN (R389): The pod manager assigns or removes the device's endpoint ID -/
  | eidAssign (eid : Option Nat)
  /-- CREDIT_GRANT (R397): Each 1 µs window a ring cluster receives its issue-credit budget -/
  | creditGrant (cluster budget : Nat)
  /-- CREDIT_FLOOR (R397): A cluster with no grant for 4 µs falls back to its floor budget -/
  | creditFloor (cluster : Nat)
  /-- SCORE_DECAY (R361): Each 2^24 cycles a resource's suspicion score drops by one -/
  | scoreDecay (kind index : Nat)
  /-- TEST_PASS_END (R365): A test pass ends, returning, retesting or retiring the resource -/
  | testPassEnd (kind index : Nat) (pass : Bool)
  /-- ROW_SPARE_COPY (R369): A row-sparing copy verifies and redirects a row, or restarts or retires its frame on a bad spare -/
  | rowSpareCopy (channel row : Nat) (bad : List Nat) (permanent : Bool)
  /-- FORCED_ROLLBACK (R32): With no boundary within a further QUANTUM, the open strip restarts and the coroutine is switched out -/
  | forcedRollback (cid h : Nat)
  /-- PREEMPT_ROLLBACK (R33): Pre-emption with no boundary within 4,096 cycles takes the coroutine by forced rollback -/
  | preemptRollback (cid h : Nat)
  /-- STALL_TIMEOUT (R130): A stalled VLDG in an open strip rolls back after 4,096 cycles and awaits the ghost word -/
  | stallTimeout (cid h : Nat)
  /-- WALKER_TURN (R312): The walker picks the next eligible queue by priority and round-robin and starts one packet -/
  | walkerTurn (q : Nat) (place : List Nat)
  /-- VCFG_WRITE (R47): A VCFG write waits for blocks and register copies and clears vector state if VN changes -/
  | vcfgWrite (v : Word)
  /-- FMASK_WRITE (R55): Any write to FMASK clears all its bits -/
  | fmaskWrite
  /-- SLPART_WRITE (R293): Sets the core's hart count only while it holds no coroutine, adjusting EVHART -/
  | slpartWrite (v : Word)
  /-- INBOXCFG_WRITE (R296): Configures the inbox ring when legal and releases allowance holds -/
  | inboxcfgWrite (v : Word)
  /-- OVFCFG_WRITE (R296): Configures overflow size and quota when legal and releases allowance holds -/
  | ovfcfgWrite (v : Word)
  /-- OVFBASE_WRITE (R96): Sets the overflow ring address and releases allowance holds -/
  | ovfbaseWrite (v : Word)
  /-- INBOXDROP_HEAD (R293): Writing 1 releases the held head inbox record without creating a handler -/
  | inboxdropHead (v : Word)
  /-- QBMBASE_WRITE (R309): Sets the queue bitmap area, which the launch processor then writes whole -/
  | qbmbaseWrite (q : Nat) (v : Word)
  /-- WCTL_WRITE (R326): Starts or stops the walker -/
  | wctlWrite (q : Nat) (v : Word)
  /-- FEVQ_READ (R326): Reading FEVQ removes and returns the head firmware event -/
  | fevqRead (q : Nat) (d : Reg)
  /-- FTCMP_WRITE (R326): Re-arms the firmware timer compare -/
  | ftcmpWrite (q : Nat) (v : Word)
  /-- REGISTER_WRITE (R4): A write to a register or control field with no row of its own, stored by its access code -/
  | registerWrite (c : BitVec 12) (v : Word)
  deriving DecidableEq, Repr

end Sys2Proof
end

