-- ==== Sys2Proof/Machine/Legal.lean ====
section
/-! DEFINITION. Which field values of an instruction are legal, as far as its own bits decide it (R138, R142 to R148). A
register number of N or more (R46), a VL above a type's MVL (R179) and the limits that depend on LPART are checked in
Sys2Proof/Machine/Operands.lean, because they depend on the state. -/

namespace Sys2Proof

/-- The element type of a code of R144. -/
def etypeOf (c : BitVec 4) : EType :=
  match c.toNat with
  | 0 => .f64 | 1 => .f32 | 2 => .f16 | 3 => .bf16 | 4 => .e4m3 | 5 => .e5m2 | 6 => .e2m1 | 7 => .i4
  | 8 => .i8 | 9 => .i16 | 10 => .i32 | 11 => .i64 | 12 => .n8 | 13 => .n16 | 14 => .n32 | _ => .n64

/-- The code of an element type (R144). -/
def etypeCode : EType → Nat
  | .f64 => 0 | .f32 => 1 | .f16 => 2 | .bf16 => 3 | .e4m3 => 4 | .e5m2 => 5 | .e2m1 => 6 | .i4 => 7
  | .i8 => 8 | .i16 => 9 | .i32 => 10 | .i64 => 11 | .n8 => 12 | .n16 => 13 | .n32 => 14 | .n64 => 15

/-- The element width in bits (R63, R65). -/
def etypeBits : EType → Nat
  | .f64 | .i64 | .n64 => 64
  | .f32 | .i32 | .n32 => 32
  | .f16 | .bf16 | .i16 | .n16 => 16
  | .e4m3 | .e5m2 | .i8 | .n8 => 8
  | .e2m1 | .i4 => 4

/-- Class F of R186. -/
def classF : EType → Bool
  | .f64 | .f32 | .f16 | .bf16 => true
  | _ => false

/-- Class I of R186. -/
def classI : EType → Bool
  | .i8 | .i16 | .i32 | .i64 | .n8 | .n16 | .n32 | .n64 => true
  | _ => false

/-- Classes F and I together. -/
def classFI (t : EType) : Bool := classF t || classI t

/-- Class X of R186: every code except .i4. -/
def classX (t : EType) : Bool := t != .i4

/-- Class X without .e2m1 (R199, R210). -/
def classX8 (t : EType) : Bool := t != .i4 && t != .e2m1

/-- The 8-bit and 4-bit floating-point types (R68, R76). -/
def smallFloat : EType → Bool
  | .e4m3 | .e5m2 | .e2m1 => true
  | _ => false

/-- The floating-point types. -/
def isFloat (t : EType) : Bool := classF t || smallFloat t

/-- Signed integer types (R63). -/
def isSigned : EType → Bool
  | .i4 | .i8 | .i16 | .i32 | .i64 => true
  | _ => false

/-- The types OPA, OPS and MLATCH accept (R235). -/
def classOpa : EType → Bool
  | .bf16 | .f16 | .e4m3 | .e5m2 | .e2m1 | .f32 | .f64 | .i8 | .n8 | .i4 => true
  | _ => false

/-- The types OPA.SP accepts (R235). -/
def classOpaSp : EType → Bool
  | .e4m3 | .e5m2 | .e2m1 | .i8 | .n8 => true
  | _ => false

/-- The types of tile images and slices (R235). -/
def classTile : EType → Bool
  | .f32 | .f64 | .i32 | .n32 => true
  | _ => false

/-- The kinds of a register field: those of R146, and `S`, a scalar register in the low five bits (R187). -/
inductive FieldKind where
  | V | K | T | Z | S
  deriving DecidableEq, Repr

/-- Whether operand b may be a snapshot scalar (R146). -/
inductive ScalarUse where
  | no | may | must
  deriving DecidableEq, Repr

/-- What a description says of the fields of its E-word (R146, R147). -/
structure Shape where
  vd : FieldKind
  va : FieldKind
  vb : FieldKind
  vc : FieldKind
  xs : ScalarUse
  masked : Bool
  sh : Bool
  typeOk : Bool
  rmOk : Bool
  fnOk : Bool
  deriving DecidableEq, Repr

/-- A field's own number is legal for its kind; a kind-V number is compared with N elsewhere (R46). -/
def fieldOk (k : FieldKind) (x : BitVec 6) : Bool :=
  match k with
  | .V => true
  | .K => x.toNat < 8
  | .T => x.toNat < 4
  | .Z => x.toNat == 0
  | .S => x.toNat < 32

/-- The rounding codes of an instruction that rounds (R186). -/
def roundOk (r : BitVec 3) : Bool := r.toNat ≤ 4 || r.toNat == 7

/-- No rounding code (R147 case 3). -/
def noRound (r : BitVec 3) : Bool := r.toNat == 0

/-- Whether stochastic rounding is eligible for a conversion (R69). -/
def srEligible (src dst : EType) : Bool :=
  isFloat src && (dst == .bf16 || dst == .f16 || smallFloat dst)

/-- The rounding codes of a conversion pair (R186, R205). -/
def convRound (src dst : EType) (r : BitVec 3) : Bool :=
  if isFloat src || isFloat dst then roundOk r || (r.toNat == 5 && srEligible src dst) else noRound r

/-- Whether VSCALE decodes or encodes the pair (R205). -/
def scalePair (src dst : EType) (sat : Bool) : Bool :=
  (smallFloat src && (dst == .f32 || dst == .f16 || dst == .bf16) && !sat)
  || ((src == .f32 || src == .f16 || src == .bf16) && smallFloat dst)

/-- The address fields of the local unit-stride forms: fn[8] is zero, fn[7] the given bit's permission, fn[6] zero (R210). -/
def fnUnit (spec : Bool) (fn : Nat) : Bool := !bit fn 8 && (spec || !bit fn 7) && !bit fn 6

/-- The address fields of the forms with a remote variant (R210). -/
def fnRemote (spec ixw : Bool) (fn : Nat) : Bool :=
  (spec || !bit fn 7) && (ixw || !bit fn 6)
  && (!bit fn 8 || (!bit fn 7 && bits fn 5 4 == 0))

/-- The address fields of the forms with a stride selector (R210). -/
def fnStride (fn : Nat) : Bool := !bit fn 7 && !bit fn 6 && (!bit fn 8 || bits fn 5 4 == 0)

/-- Binary and unary arithmetic and logic (R189, R192). -/
def shapeArith (vb vc : FieldKind) (xs : ScalarUse) (t r fn : Bool) : Shape :=
  { vd := .V, va := .V, vb := vb, vc := vc, xs := xs, masked := true, sh := true, typeOk := t, rmOk := r, fnOk := fn }

/-- The mask instructions (R195). -/
def shapeMask (vd vb : FieldKind) (w : EWord) : Shape :=
  { vd := vd, va := .K, vb := vb, vc := .Z, xs := .no, masked := true, sh := vd == .K, typeOk := w.ty.toNat == 0,
    rmOk := noRound w.rm, fnOk := w.fn.toNat == 0 }

/-- The permutes and moves (R199). -/
def shapeMove (vd va vb vc : FieldKind) (xs : ScalarUse) (masked t fn : Bool) (w : EWord) : Shape :=
  { vd := vd, va := va, vb := vb, vc := vc, xs := xs, masked := masked, sh := vd == .V, typeOk := t, rmOk := noRound w.rm,
    fnOk := fn }

/-- Reductions and scans (R201). -/
def shapeReduce (scan : Bool) (rounds : Bool) (w : EWord) : Shape :=
  let t := etypeOf w.ty
  let sel := bit w.fn.toNat 2
  { vd := .V, va := .V, vb := .Z, vc := if sel && !scan then .K else .Z, xs := .no, masked := scan, sh := true,
    typeOk := classFI t, rmOk := if rounds && classF t then roundOk w.rm else noRound w.rm,
    fnOk := w.fn.toNat < 8 && !(scan && sel) }

/-- Vector memory (R210). -/
def shapeMem (vd va vb : FieldKind) (xs : ScalarUse) (masked t fn : Bool) (w : EWord) : Shape :=
  { vd := vd, va := va, vb := vb, vc := .Z, xs := xs, masked := masked, sh := vd == .V, typeOk := t, rmOk := noRound w.rm,
    fnOk := fn }

/-- Outer products (R235). -/
def shapeOpa (sp : Bool) (w : EWord) : Shape :=
  let t := etypeOf w.ty
  let fn := w.fn.toNat
  let mx := bit fn 2 && smallFloat t
  { vd := .T, va := if mx then .V else .Z, vb := .Z, vc := if mx then .V else .Z, xs := .must, masked := true, sh := true,
    typeOk := if sp then classOpaSp t else classOpa t,
    rmOk := if isFloat t then roundOk w.rm else noRound w.rm,
    fnOk := (if sp then bits fn 1 0 != 3 else bits fn 1 0 == 0) && (!bit fn 2 || smallFloat t || !isFloat t) }

/-- Tile loads and stores and MLATCH (R235). -/
def shapeTileMem (vd va : FieldKind) (sh t : Bool) (w : EWord) : Shape :=
  { vd := vd, va := va, vb := .Z, vc := .Z, xs := .must, masked := true, sh := sh, typeOk := t, rmOk := noRound w.rm,
    fnOk := bits w.fn.toNat 8 0 == 0 }

/-- Tile slices (R235). -/
def shapeSlice (vd va : FieldKind) (w : EWord) : Shape :=
  { vd := vd, va := va, vb := .Z, vc := .Z, xs := .may, masked := true, sh := true, typeOk := classTile (etypeOf w.ty),
    rmOk := noRound w.rm, fnOk := bits w.fn.toNat 12 7 == 0 && (!w.xs || bits w.fn.toNat 5 0 == 0) }

/-- E-words with no operand at all (R209, R235). -/
def shapeNone (w : EWord) : Shape :=
  { vd := .Z, va := .Z, vb := .Z, vc := .Z, xs := .no, masked := false, sh := false, typeOk := w.ty.toNat == 0,
    rmOk := noRound w.rm, fnOk := w.fn.toNat == 0 }

/-- The pairs of MCVT (R243). -/
def mcvtPair (w : EWord) : Bool × Bool :=
  let src := etypeOf (BitVec.ofNat 4 w.fn.toNat)
  let dst := etypeOf w.ty
  let sat := bit w.fn.toNat 4
  match src, dst with
  | .f32, .bf16 | .f32, .f16 | .f32, .e4m3 | .f32, .e5m2 | .f32, .e2m1 => (true, roundOk w.rm || w.rm.toNat == 5)
  | .i32, .f32 | .f32, .i32 => (!sat, roundOk w.rm)
  | _, _ => (false, false)

/-- The description of an instruction's E-word fields, by constructor; none for the constructors that are no E-word. -/
def shapeOf (i : Instr) : Option (Shape × EWord) :=
  match i with
  | .vnop w | .vstop w => some ({ shapeNone w with fnOk := w.fn.toNat == 0 && w.sg.toNat == 0 }, w)
  | .mstart w | .mstop w | .mrot w => some (shapeNone w, w)
  | .vadd w | .vsub w | .vmul w =>
    let t := etypeOf w.ty
    some (shapeArith .V .Z .may (classFI t) (if classF t then roundOk w.rm else noRound w.rm) (w.fn.toNat == 0), w)
  | .vfma w | .vfms w | .vfnma w =>
    let t := etypeOf w.ty
    some (shapeArith .V .V .may (classFI t) (if classF t then roundOk w.rm else noRound w.rm) (w.fn.toNat == 0), w)
  | .vdiv w => some (shapeArith .V .Z .may (classF (etypeOf w.ty)) (roundOk w.rm) (w.fn.toNat == 0), w)
  | .vsqrt w => some (shapeArith .Z .Z .no (classF (etypeOf w.ty)) (roundOk w.rm) (w.fn.toNat == 0), w)
  | .vrsqrt w | .vrcp w | .vexp2 w | .vlog2 w =>
    some (shapeArith .Z .Z .no (etypeOf w.ty == .f32) (roundOk w.rm) (w.fn.toNat == 0), w)
  | .vmin w | .vmax w => some (shapeArith .V .Z .may (classFI (etypeOf w.ty)) (noRound w.rm) (w.fn.toNat == 0), w)
  | .vabs w | .vneg w => some (shapeArith .Z .Z .no (classFI (etypeOf w.ty)) (noRound w.rm) (w.fn.toNat == 0), w)
  | .vmulh w | .vsadd w | .vssub w | .vand w | .vor w | .vxor w =>
    some (shapeArith .V .Z .may (classI (etypeOf w.ty)) (noRound w.rm) (w.fn.toNat == 0), w)
  | .vnot w | .vclz w | .vpopc w => some (shapeArith .Z .Z .no (classI (etypeOf w.ty)) (noRound w.rm) (w.fn.toNat == 0), w)
  | .vshl w | .vshr w | .vsra w =>
    let t := etypeOf w.ty
    let fn := w.fn.toNat
    some (if bit fn 6 then
        shapeArith .Z .Z .no (classI t) (noRound w.rm) (bits fn 12 7 == 0 && bits fn 5 0 < etypeBits t)
      else shapeArith .V .Z .may (classI t) (noRound w.rm) (fn == 0), w)
  | .vcmp w =>
    some ({ vd := .K, va := .V, vb := .V, vc := .Z, xs := .may, masked := true, sh := true,
            typeOk := classFI (etypeOf w.ty), rmOk := noRound w.rm, fnOk := w.fn.toNat < 6 }, w)
  | .kand w | .kor w | .kxor w => some (shapeMask .K .K w, w)
  | .knot w | .ksbf w | .ksif w | .ksof w => some (shapeMask .K .Z w, w)
  | .kpopc w | .kfirst w => some (shapeMask .S .Z w, w)
  | .vmerge w | .vmergeF w => some (shapeMove .V .V .V .K .may false (classX (etypeOf w.ty)) (w.fn.toNat == 0) w, w)
  | .vslideup w | .vslidedn w =>
    some (shapeMove .V .V .Z .Z .may true (classX (etypeOf w.ty)) (!w.xs || w.fn.toNat == 0) w, w)
  | .vperm w => some (shapeMove .V .V .V .Z .no true (classX8 (etypeOf w.ty)) (w.fn.toNat == 0) w, w)
  | .vcompress w | .vexpand w =>
    some (shapeMove .V .V .Z .K .no false (classX (etypeOf w.ty)) (w.fn.toNat == 0) w, w)
  | .viota w => some (shapeMove .V .K .Z .Z .no true (classI (etypeOf w.ty)) (w.fn.toNat == 0) w, w)
  | .vid w => some (shapeMove .V .Z .Z .Z .no true (classI (etypeOf w.ty)) (w.fn.toNat == 0) w, w)
  | .vbcast w =>
    some (shapeMove .V (if w.xs then .Z else .V) .Z .Z .may true (classX (etypeOf w.ty)) (w.fn.toNat == 0) w, w)
  | .vmovx w => some (shapeMove .S .V .Z .Z .may false (classX (etypeOf w.ty)) (w.fn.toNat == 0) w, w)
  | .vins w => some (shapeMove .V .Z .Z .Z .must true (classX (etypeOf w.ty)) (w.fn.toNat == 0) w, w)
  | .vredsum w => some (shapeReduce false true w, w)
  | .vredmax w | .vredmin w => some (shapeReduce false false w, w)
  | .vscanAdd w => some (shapeReduce true true w, w)
  | .vscanMax w => some (shapeReduce true false w, w)
  | .vcvt w =>
    let src := etypeOf (BitVec.ofNat 4 w.fn.toNat)
    let dst := etypeOf w.ty
    some ({ vd := .V, va := .V, vb := .Z, vc := .Z, xs := .no, masked := true, sh := true,
            typeOk := src != dst && src != .i4 && dst != .i4, rmOk := convRound src dst w.rm,
            fnOk := w.fn.toNat < 32 && !(bit w.fn.toNat 4 && classF dst) }, w)
  | .vscale w =>
    let src := etypeOf (BitVec.ofNat 4 w.fn.toNat)
    let dst := etypeOf w.ty
    some ({ vd := .V, va := .V, vb := .V, vc := .Z, xs := .no, masked := true, sh := true,
            typeOk := scalePair src dst (bit w.fn.toNat 4), rmOk := convRound src dst w.rm, fnOk := w.fn.toNat < 32 }, w)
  | .vld w => some (shapeMem .V .Z .Z .no true (classX (etypeOf w.ty)) (fnUnit true w.fn.toNat) w, w)
  | .vlds w => some (shapeMem .V .Z .Z .must true (classX8 (etypeOf w.ty)) (fnRemote true false w.fn.toNat) w, w)
  | .vldx w => some (shapeMem .V .Z .V .no true (classX8 (etypeOf w.ty)) (fnRemote true true w.fn.toNat) w, w)
  | .vldff w => some (shapeMem .V .Z .Z .no true (classX (etypeOf w.ty)) (fnUnit false w.fn.toNat) w, w)
  | .vldg w => some (shapeMem .V .Z .Z .must true (classX8 (etypeOf w.ty)) (fnStride w.fn.toNat) w, w)
  | .vpref w =>
    some (shapeMem .Z .Z .Z .may true (classX (etypeOf w.ty)) (fnStride w.fn.toNat && !(bit w.fn.toNat 8 && w.xs)) w, w)
  | .vst w => some (shapeMem .Z .V .Z .no true (classX (etypeOf w.ty)) (fnUnit false w.fn.toNat) w, w)
  | .vsts w => some (shapeMem .Z .V .Z .must true (classX8 (etypeOf w.ty)) (fnRemote false false w.fn.toNat) w, w)
  | .vstx w => some (shapeMem .Z .V .V .no true (classX8 (etypeOf w.ty)) (fnRemote false true w.fn.toNat) w, w)
  | .vstg w => some (shapeMem .Z .V .Z .must true (classX8 (etypeOf w.ty)) (fnStride w.fn.toNat) w, w)
  | .vsqCommit w => some (shapeMem .Z .Z .Z .no true (w.ty.toNat == 0) (w.fn.toNat == 0) w, w)
  | .vsqDrop w => some (shapeMem .Z .Z .Z .no false (w.ty.toNat == 0) (w.fn.toNat == 0) w, w)
  | .mzero w =>
    some ({ vd := .T, va := .Z, vb := .Z, vc := .Z, xs := .no, masked := true, sh := true, typeOk := w.ty.toNat == 0,
            rmOk := noRound w.rm, fnOk := w.fn.toNat == 0 }, w)
  | .opa w | .ops w => some (shapeOpa false w, w)
  | .opaSp w => some (shapeOpa true w, w)
  | .mld w => some (shapeTileMem .T .Z true (classTile (etypeOf w.ty)) w, w)
  | .mst w => some (shapeTileMem .Z .T false (classTile (etypeOf w.ty)) w, w)
  | .mlatch w => some (shapeTileMem .Z .Z false (classOpa (etypeOf w.ty)) w, w)
  | .mmovV w => some (shapeSlice .V .T w, w)
  | .vmovM w => some (shapeSlice .T .V w, w)
  | .mcvt w =>
    some ({ vd := .T, va := .T, vb := .Z, vc := .Z, xs := .no, masked := true, sh := true, typeOk := (mcvtPair w).1,
            rmOk := (mcvtPair w).2, fnOk := w.fn.toNat < 32 }, w)
  | _ => none

/-- The fields of an E-word are legal for its description (R146, R147). -/
def shapeOk (p : Shape) (w : EWord) : Bool :=
  fieldOk p.vd w.vd && fieldOk p.va w.va && fieldOk p.vc w.vc
  && (if w.xs then p.xs != .no && w.vb.toNat < 16 && !w.cb else p.xs != .must && fieldOk p.vb w.vb)
  && (!w.ca || p.va == .V) && (!w.cb || p.vb == .V) && (!w.cc || p.vc == .V)
  && (if p.masked then !(w.k.toNat == 0 && w.pol) else w.k.toNat == 0 && !w.pol)
  && (!w.sh || p.sh) && p.typeOk && p.rmOk && w.sg.toNat ≤ 4 && p.fnOk

/-- Rounding codes of the scalar floating-point instructions: 5 and 6 are not allocated (R166). -/
def fpRound (r : BitVec 3) : Bool := r.toNat != 5 && r.toNat != 6

/-- The operation and the compare-and-swap register of an atomic (R257). -/
def atomicOk (b : Reg) (p : BitVec 4) : Bool := p.toNat ≤ 9 && (p.toNat != 9 || b.val ≤ 30)

/-- Whether an instruction's fields are legal, as far as its own bits decide it (R138, R147). A sub-step of the machine
has no encoding, so nothing to refuse. -/
def legal (i : Instr) : Bool :=
  match i with
  | .loopst _ s _ => 1 ≤ s.toNat && s.toNat ≤ 4
  | .setvl _ _ w => w.toNat ≤ 4
  | .fadd _ _ _ r _ | .fsub _ _ _ r _ | .fmul _ _ _ r _ | .fdiv _ _ _ r _ | .fsqrt _ _ r _ => fpRound r
  | .fcvt _ _ r _ c => fpRound r && c.toNat != 3
  | .fcvtToInt _ _ r _ c => fpRound r && (c.toNat == 1 || c.toNat == 2)
  | .fma _ _ _ _ r _ => fpRound r
  | .cpG _ _ _ _ q k | .cpS _ _ _ _ q k => !(k.toNat == 0 && q)
  | .ratom _ _ b _ _ p => atomicOk b p
  | .awaitany _ _ _ n i _ => n.toNat ≤ 32 && (n.toNat != 0 || i)
  | .ldfe _ _ e r | .stfe _ _ e r | .feset _ e r | .feclr _ e r => r || e.val == 0
  | .amo _ _ b s o _ p => atomicOk b p && s.toNat ≤ 4 && (o.toNat != 0 || s.toNat == 0)
  | .fenceRel s | .fenceAcq s | .fenceAr s | .fenceSc s => s.toNat ≤ 4
  | .msend _ _ _ y => y.toNat < 0xF0
  | .galloc _ _ l => 6 ≤ l.toNat && l.toNat ≤ 21
  | i =>
    match shapeOf i with
    | some (p, w) => shapeOk p w
    | none => true

end Sys2Proof
end

