-- ==== Sys2Proof/WellFormed.lean ====
section
/-! DEFINITION. Well-formed instructions: those whose fields the spec allocates (R138, R147). An instruction that is not
well-formed still decodes by its opcode and raises ILLEGAL when it is executed. -/

namespace Sys2Proof

/-- Every field of the instruction holds a value that its description allocates (R138, R143 to R148). -/
abbrev WellFormed (i : Instr) : Prop := legal i = true

end Sys2Proof
end

