-- ==== Sys2Proof/Decode.lean ====
section
/-! DEFINITION. The decoder of S-words (R137 to R140) and E-words (R143, R148), total on any word, and the encoder written
from the same tables. A word whose major, fn or flags is unallocated, or with a non-zero unused field, decodes to nothing
(R138, R148); the caller names it by its bits (`BadWord`). -/

namespace Sys2Proof

/-- The scalar register of a 5-bit field. -/
def reg (n : Nat) : Reg := Fin.ofNat 32 n

/-- A one-bit field. -/
def isOne (n : Nat) : Bool := n % 2 == 1

/-- Major 0x01, OP (R161). -/
def decodeOp (d a b fn : Nat) : Option Instr :=
  if fn ≥ 128 then none
  else
    match fn % 64 with
    | 15 => some (.slli (reg d) (reg a) (BitVec.ofNat 6 (b + 32 * (fn / 64))))
    | 16 => some (.srli (reg d) (reg a) (BitVec.ofNat 6 (b + 32 * (fn / 64))))
    | 17 => some (.srai (reg d) (reg a) (BitVec.ofNat 6 (b + 32 * (fn / 64))))
    | _ =>
      match fn with
      | 0 => some (.add (reg d) (reg a) (reg b))
      | 1 => some (.sub (reg d) (reg a) (reg b))
      | 2 => some (.mul (reg d) (reg a) (reg b))
      | 3 => some (.mulh (reg d) (reg a) (reg b))
      | 4 => some (.mulhn (reg d) (reg a) (reg b))
      | 5 => some (.div (reg d) (reg a) (reg b))
      | 6 => some (.divn (reg d) (reg a) (reg b))
      | 7 => some (.rem (reg d) (reg a) (reg b))
      | 8 => some (.remn (reg d) (reg a) (reg b))
      | 9 => some (.and (reg d) (reg a) (reg b))
      | 10 => some (.or (reg d) (reg a) (reg b))
      | 11 => some (.xor (reg d) (reg a) (reg b))
      | 12 => some (.sll (reg d) (reg a) (reg b))
      | 13 => some (.srl (reg d) (reg a) (reg b))
      | 14 => some (.sra (reg d) (reg a) (reg b))
      | 18 => some (.slt (reg d) (reg a) (reg b))
      | 19 => some (.sltn (reg d) (reg a) (reg b))
      | 20 => some (.min (reg d) (reg a) (reg b))
      | 21 => some (.max (reg d) (reg a) (reg b))
      | 22 => some (.minn (reg d) (reg a) (reg b))
      | 23 => some (.maxn (reg d) (reg a) (reg b))
      | 24 => if b = 0 then some (.clz (reg d) (reg a)) else none
      | 25 => if b = 0 then some (.ctz (reg d) (reg a)) else none
      | 26 => if b = 0 then some (.popc (reg d) (reg a)) else none
      | _ => none

/-- Major 0x27, STRIP (R176). -/
def decodeStrip (d a b fn : Nat) : Option Instr :=
  if b ≠ 0 ∨ fn ≥ 128 then none
  else
    match fn % 16 with
    | 0 => some (.setvl (reg d) (reg a) (BitVec.ofNat 3 (fn / 16)))
    | 1 => if fn = 1 then some (.settl (reg d) (reg a)) else none
    | 2 => if fn = 2 ∧ d = 0 ∧ a = 0 then some .stripend else none
    | _ => none

/-- Major 0x2C, SYS (R175). -/
def decodeSys (d a b fn : Nat) : Option Instr :=
  if d ≠ 0 ∨ b ≠ 0 then none
  else
    match fn with
    | 0 => some (.scall (reg a))
    | 1 => some (.trap (reg a))
    | 2 => if a = 0 then some .eret else none
    | 3 => if a = 0 then some .wfm else none
    | _ => none

/-- Major 0x2D, FPOP (R166 to R169). -/
def decodeFpop (d a b fn : Nat) : Option Instr :=
  let r := BitVec.ofNat 3 (fn / 128)
  let z := isOne (fn / 64)
  let c := fn / 16 % 4
  match fn % 16 with
  | 0 => if c = 0 then some (.fadd (reg d) (reg a) (reg b) r z) else none
  | 1 => if c = 0 then some (.fsub (reg d) (reg a) (reg b) r z) else none
  | 2 => if c = 0 then some (.fmul (reg d) (reg a) (reg b) r z) else none
  | 3 => if c = 0 then some (.fdiv (reg d) (reg a) (reg b) r z) else none
  | 4 => if c = 0 ∧ b = 0 then some (.fsqrt (reg d) (reg a) r z) else none
  | 5 => if c = 0 ∧ fn / 128 = 0 then some (.fmin (reg d) (reg a) (reg b) z) else none
  | 6 => if c = 0 ∧ fn / 128 = 0 then some (.fmax (reg d) (reg a) (reg b) z) else none
  | 7 => if fn / 128 = 0 then some (.fcmp (reg d) (reg a) (reg b) z (BitVec.ofNat 2 c)) else none
  | 8 => if b = 0 then some (.fcvt (reg d) (reg a) r z (BitVec.ofNat 2 c)) else none
  | 9 => if b = 0 then some (.fcvtToInt (reg d) (reg a) r z (BitVec.ofNat 2 c)) else none
  | _ => none

/-- The flags of CP.G and CP.S (R244). -/
def decodeGather (mk : Reg → Reg → BitVec 6 → Bool → Bool → BitVec 3 → Instr) (d a b fn : Nat) : Option Instr :=
  if fn ≥ 64 then none
  else some (mk (reg d) (reg a) (BitVec.ofNat 6 (b + 32 * (fn / 32))) (isOne (fn / 16)) (isOne (fn / 8)) (BitVec.ofNat 3 (fn % 8)))

/-- Major 0x3D, FE (R244). -/
def decodeFe (d a b fn : Nat) : Option Instr :=
  let r := isOne (fn / 4)
  if fn ≥ 8 then none
  else
    match fn % 4 with
    | 0 => some (.ldfe (reg d) (reg a) (reg b) r)
    | 1 => some (.stfe (reg d) (reg a) (reg b) r)
    | 2 => if d = 0 then some (.feset (reg a) (reg b) r) else none
    | _ => if d = 0 then some (.feclr (reg a) (reg b) r) else none

/-- Major 0x3F, ORDER (R257). -/
def decodeOrder (d a b fn : Nat) : Option Instr :=
  if d ≠ 0 ∨ a ≠ 0 ∨ b ≠ 0 ∨ fn ≥ 64 then none
  else
    match fn % 8 with
    | 0 => some (.fenceRel (BitVec.ofNat 3 (fn / 8)))
    | 1 => some (.fenceAcq (BitVec.ofNat 3 (fn / 8)))
    | 2 => some (.fenceAr (BitVec.ofNat 3 (fn / 8)))
    | 3 => some (.fenceSc (BitVec.ofNat 3 (fn / 8)))
    | 4 => if fn = 4 then some .lsync else none
    | _ => none

/-- Major 0x45, GRID (R244). -/
def decodeGrid (d a b fn : Nat) : Option Instr :=
  match fn with
  | 0 => if b = 0 then some (.gdecl (reg d) (reg a)) else none
  | 1 => if d = 0 then some (.gstep (reg a) (reg b)) else none
  | 2 => if d = 0 then some (.gwait (reg a) (reg b)) else none
  | 3 => if d = 0 ∧ b = 0 then some (.gdrop (reg a)) else none
  | _ => none

/-- Majors 0x30 to 0x45, format SA (R244). -/
def decodeSa (m d a b fn : Nat) : Option Instr :=
  match m with
  | 0x30 => if b = 0 ∧ fn = 0 then some (.cp (reg d) (reg a)) else none
  | 0x31 => decodeGather .cpG d a b fn
  | 0x32 => decodeGather .cpS d a b fn
  | 0x33 => if fn = 0 then some (.rget (reg d) (reg a) (reg b)) else none
  | 0x34 => if fn = 0 then some (.rput (reg d) (reg a) (reg b)) else none
  | 0x35 =>
    if fn < 128 then
      some (.ratom (reg d) (reg a) (reg b) (BitVec.ofNat 2 (fn / 32)) (isOne (fn / 16)) (BitVec.ofNat 4 (fn % 16)))
    else none
  | 0x36 => if b = 0 ∧ fn < 2 then some (.await (reg d) (reg a) (isOne fn)) else none
  | 0x37 =>
    if fn < 256 then
      some (.awaitany (reg d) (reg a) (reg b) (BitVec.ofNat 6 (fn / 4)) (isOne (fn / 2)) (isOne fn))
    else none
  | 0x38 => if fn = 0 then some (.sinit (reg d) (reg a) (reg b)) else none
  | 0x39 => if d = 0 ∧ fn = 0 then some (.expect (reg a) (reg b)) else none
  | 0x3A => if a = 0 ∧ fn = 0 then some (.arrive (reg d) (reg b)) else none
  | 0x3B => if b = 0 ∧ fn = 0 then some (.sgen (reg d) (reg a)) else none
  | 0x3C => if fn = 0 then some (.tkmake (reg d) (reg a) (reg b)) else none
  | 0x3D => decodeFe d a b fn
  | 0x3E =>
    some (.amo (reg d) (reg a) (reg b) (BitVec.ofNat 3 (fn / 128)) (BitVec.ofNat 2 (fn / 32 % 4)) (isOne (fn / 16))
      (BitVec.ofNat 4 (fn % 16)))
  | 0x3F => decodeOrder d a b fn
  | 0x40 => if b = 0 then some (.msend (reg d) (reg a) (BitVec.ofNat 2 (fn / 256)) (BitVec.ofNat 8 (fn % 256))) else none
  | 0x41 => if b = 0 ∧ fn < 32 then some (.spawn (reg d) (reg a) (BitVec.ofNat 5 fn)) else none
  | 0x42 =>
    if d ≠ 0 ∨ a ≠ 0 ∨ b ≠ 0 then none
    else
      match fn with
      | 0 => some .yield
      | 1 => some .cexit
      | _ => none
  | 0x43 => if a = 0 ∧ fn < 32 then some (.galloc (reg d) (reg b) (BitVec.ofNat 5 fn)) else none
  | 0x44 => if d = 0 ∧ b = 0 ∧ fn = 0 then some (.gfree (reg a)) else none
  | 0x45 => decodeGrid d a b fn
  | _ => none

/-- An S-word from its major and its fields (R137, R139, R140): `f` is bits [14:0] and `j` bits [19:0]. -/
def decodeFields (m d a f j : Nat) : Option Instr :=
  let i := BitVec.ofNat 15 f
  let k := BitVec.ofNat 20 j
  let b := f / 1024
  let fn := f % 1024
  let c := BitVec.ofNat 12 f
  match m with
  | 0x01 => decodeOp d a b fn
  | 0x02 => some (.addi (reg d) (reg a) i)
  | 0x03 => some (.andi (reg d) (reg a) i)
  | 0x04 => some (.ori (reg d) (reg a) i)
  | 0x05 => some (.xori (reg d) (reg a) i)
  | 0x06 => some (.slti (reg d) (reg a) i)
  | 0x08 => some (.ldB (reg d) (reg a) i)
  | 0x09 => some (.ldBn (reg d) (reg a) i)
  | 0x0A => some (.ldH (reg d) (reg a) i)
  | 0x0B => some (.ldHn (reg d) (reg a) i)
  | 0x0C => some (.ldW (reg d) (reg a) i)
  | 0x0D => some (.ldWn (reg d) (reg a) i)
  | 0x0E => some (.ldD (reg d) (reg a) i)
  | 0x10 => some (.stB (reg d) (reg a) i)
  | 0x11 => some (.stH (reg d) (reg a) i)
  | 0x12 => some (.stW (reg d) (reg a) i)
  | 0x13 => some (.stD (reg d) (reg a) i)
  | 0x18 => some (.beq (reg d) (reg a) i)
  | 0x19 => some (.bne (reg d) (reg a) i)
  | 0x1A => some (.blt (reg d) (reg a) i)
  | 0x1B => some (.bge (reg d) (reg a) i)
  | 0x1C => some (.bltn (reg d) (reg a) i)
  | 0x1D => some (.bgen (reg d) (reg a) i)
  | 0x1E => if d < 16 then some (.bsa (Fin.ofNat 16 d) (reg a) i) else none
  | 0x1F => if a = 0 then some (.loopv (reg d) i) else none
  | 0x20 => some (.jal (reg d) k)
  | 0x21 => some (.jalr (reg d) (reg a) i)
  | 0x22 => some (.lui (reg d) k)
  | 0x23 => some (.aipc (reg d) k)
  | 0x24 => if d = 0 then some (.vfetch k) else none
  | 0x25 => if d = 0 then some (.vfetchReg (reg a) i) else none
  | 0x26 => some (.loopst (reg d) (BitVec.ofNat 5 a) i)
  | 0x27 => decodeStrip d a b fn
  | 0x28 => if a = 0 ∧ f < 4096 then some (.csrr (reg d) c) else none
  | 0x29 => if d = 0 ∧ f < 4096 then some (.csrw (reg a) c) else none
  | 0x2A => if d = 0 ∧ f < 4096 then some (.csrs (reg a) c) else none
  | 0x2B => if d = 0 ∧ f < 4096 then some (.csrc (reg a) c) else none
  | 0x2C => decodeSys d a b fn
  | 0x2D => decodeFpop d a b fn
  | 0x2E =>
    if fn % 2 = 0 then
      some (.fma (reg d) (reg a) (reg b) (reg (fn / 32)) (BitVec.ofNat 3 (fn / 4 % 8)) (isOne (fn / 2)))
    else none
  | m => decodeSa m d a b fn

/-- The instruction of an S-word, given as a number below 2^32 (R137 to R140). -/
def decodeS (w : Nat) : Option Instr :=
  decodeFields (w / 33554432) (w / 1048576 % 32) (w / 32768 % 32) (w % 32768) (w % 1048576)

/-- The fields of an E-word, given as a number (R143). -/
def ewordOf (w : Nat) : EWord where
  vd := BitVec.ofNat 6 (w / 2 ^ 50)
  va := BitVec.ofNat 6 (w / 2 ^ 44)
  vb := BitVec.ofNat 6 (w / 2 ^ 38)
  vc := BitVec.ofNat 6 (w / 2 ^ 32)
  ca := isOne (w / 2 ^ 31)
  cb := isOne (w / 2 ^ 30)
  cc := isOne (w / 2 ^ 29)
  k := BitVec.ofNat 3 (w / 2 ^ 26)
  pol := isOne (w / 2 ^ 25)
  sh := isOne (w / 2 ^ 24)
  ty := BitVec.ofNat 4 (w / 2 ^ 20)
  rm := BitVec.ofNat 3 (w / 2 ^ 17)
  sg := BitVec.ofNat 3 (w / 2 ^ 14)
  xs := isOne (w / 2 ^ 13)
  fn := BitVec.ofNat 13 w

/-- The E-word of a major opcode (R148). -/
def decodeMajor (m : Nat) (w : EWord) : Option Instr :=
  match m with
  | 0x01 => some (.vnop w)
  | 0x02 => some (.vstop w)
  | 0x10 => some (.vadd w)
  | 0x11 => some (.vsub w)
  | 0x12 => some (.vmul w)
  | 0x13 => some (.vfma w)
  | 0x14 => some (.vfms w)
  | 0x15 => some (.vfnma w)
  | 0x16 => some (.vdiv w)
  | 0x17 => some (.vsqrt w)
  | 0x18 => some (.vrsqrt w)
  | 0x19 => some (.vrcp w)
  | 0x1A => some (.vexp2 w)
  | 0x1B => some (.vlog2 w)
  | 0x1C => some (.vmin w)
  | 0x1D => some (.vmax w)
  | 0x1E => some (.vabs w)
  | 0x1F => some (.vneg w)
  | 0x20 => some (.vmulh w)
  | 0x21 => some (.vsadd w)
  | 0x22 => some (.vssub w)
  | 0x28 => some (.vshl w)
  | 0x29 => some (.vshr w)
  | 0x2A => some (.vsra w)
  | 0x2B => some (.vand w)
  | 0x2C => some (.vor w)
  | 0x2D => some (.vxor w)
  | 0x2E => some (.vnot w)
  | 0x2F => some (.vclz w)
  | 0x30 => some (.vpopc w)
  | 0x38 => some (.vcmp w)
  | 0x40 => some (.kand w)
  | 0x41 => some (.kor w)
  | 0x42 => some (.kxor w)
  | 0x43 => some (.knot w)
  | 0x44 => some (.ksbf w)
  | 0x45 => some (.ksif w)
  | 0x46 => some (.ksof w)
  | 0x47 => some (.kpopc w)
  | 0x48 => some (.kfirst w)
  | 0x50 => some (.vmerge w)
  | 0x51 => some (.vmergeF w)
  | 0x58 => some (.vslideup w)
  | 0x59 => some (.vslidedn w)
  | 0x5A => some (.vperm w)
  | 0x5B => some (.vcompress w)
  | 0x5C => some (.vexpand w)
  | 0x5D => some (.viota w)
  | 0x5E => some (.vid w)
  | 0x5F => some (.vbcast w)
  | 0x60 => some (.vmovx w)
  | 0x61 => some (.vins w)
  | 0x68 => some (.vredsum w)
  | 0x69 => some (.vredmax w)
  | 0x6A => some (.vredmin w)
  | 0x6B => some (.vscanAdd w)
  | 0x6C => some (.vscanMax w)
  | 0x70 => some (.vcvt w)
  | 0x71 => some (.vscale w)
  | 0x80 => some (.vld w)
  | 0x81 => some (.vlds w)
  | 0x82 => some (.vldx w)
  | 0x83 => some (.vldff w)
  | 0x84 => some (.vldg w)
  | 0x85 => some (.vpref w)
  | 0x88 => some (.vst w)
  | 0x89 => some (.vsts w)
  | 0x8A => some (.vstx w)
  | 0x8B => some (.vstg w)
  | 0x8C => some (.vsqCommit w)
  | 0x8D => some (.vsqDrop w)
  | 0xA0 => some (.mstart w)
  | 0xA1 => some (.mstop w)
  | 0xA2 => some (.mzero w)
  | 0xA3 => some (.opa w)
  | 0xA4 => some (.ops w)
  | 0xA5 => some (.opaSp w)
  | 0xA6 => some (.mld w)
  | 0xA7 => some (.mst w)
  | 0xA8 => some (.mlatch w)
  | 0xA9 => some (.mrot w)
  | 0xAA => some (.mmovV w)
  | 0xAB => some (.vmovM w)
  | 0xAC => some (.mcvt w)
  | _ => none

/-- The instruction of an E-word, given as a number below 2^64 (R143, R148). -/
def decodeE (w : Nat) : Option Instr := decodeMajor (w / 2 ^ 56) (ewordOf w)

/-- The decoder on bytes as memory holds them, little-endian: four bytes are an S-word and eight an E-word (R134). -/
def decodeBytes (bs : List Byte) : Option Instr :=
  match bs.length with
  | 4 => decodeS (ofBytes bs)
  | 8 => decodeE (ofBytes bs)
  | _ => none

/-- The instruction of a table row's word: the bits of the S-word or E-word laid out in memory and decoded. -/
def decodeTableWord (nbits w : Nat) : Option Instr := decodeBytes (bytesOf (nbits / 8) w)

/-- Format SR and SA (R137). -/
def wordSr (m d a b fn : Nat) : Nat := m * 33554432 + d * 1048576 + a * 32768 + b * 1024 + fn

/-- Formats SI and SB (R137). -/
def wordSi (m d a i : Nat) : Nat := m * 33554432 + d * 1048576 + a * 32768 + i

/-- Formats SJ and SL (R137). -/
def wordSj (m d j : Nat) : Nat := m * 33554432 + d * 1048576 + j

/-- A flag's bit of a number. -/
def bitAt (b : Bool) (n : Nat) : Nat := if b then n else 0

/-- An E-word's fields below its major as one number (R143). -/
def ewordBits (w : EWord) : Nat :=
  w.vd.toNat * 2 ^ 50 + w.va.toNat * 2 ^ 44 + w.vb.toNat * 2 ^ 38 + w.vc.toNat * 2 ^ 32
  + bitAt w.ca (2 ^ 31) + bitAt w.cb (2 ^ 30) + bitAt w.cc (2 ^ 29) + w.k.toNat * 2 ^ 26 + bitAt w.pol (2 ^ 25)
  + bitAt w.sh (2 ^ 24) + w.ty.toNat * 2 ^ 20 + w.rm.toNat * 2 ^ 17 + w.sg.toNat * 2 ^ 14 + bitAt w.xs (2 ^ 13) + w.fn.toNat

/-- The S-word of an instruction as a number; none for the instructions that are no S-word. -/
def encodeS (i : Instr) : Option Nat :=
  match i with
  | .add d a b => some (wordSr 0x01 d a b 0)
  | .sub d a b => some (wordSr 0x01 d a b 1)
  | .mul d a b => some (wordSr 0x01 d a b 2)
  | .mulh d a b => some (wordSr 0x01 d a b 3)
  | .mulhn d a b => some (wordSr 0x01 d a b 4)
  | .div d a b => some (wordSr 0x01 d a b 5)
  | .divn d a b => some (wordSr 0x01 d a b 6)
  | .rem d a b => some (wordSr 0x01 d a b 7)
  | .remn d a b => some (wordSr 0x01 d a b 8)
  | .and d a b => some (wordSr 0x01 d a b 9)
  | .or d a b => some (wordSr 0x01 d a b 10)
  | .xor d a b => some (wordSr 0x01 d a b 11)
  | .sll d a b => some (wordSr 0x01 d a b 12)
  | .srl d a b => some (wordSr 0x01 d a b 13)
  | .sra d a b => some (wordSr 0x01 d a b 14)
  | .slli d a n => some (wordSr 0x01 d a (n.toNat % 32) (15 + 64 * (n.toNat / 32)))
  | .srli d a n => some (wordSr 0x01 d a (n.toNat % 32) (16 + 64 * (n.toNat / 32)))
  | .srai d a n => some (wordSr 0x01 d a (n.toNat % 32) (17 + 64 * (n.toNat / 32)))
  | .slt d a b => some (wordSr 0x01 d a b 18)
  | .sltn d a b => some (wordSr 0x01 d a b 19)
  | .min d a b => some (wordSr 0x01 d a b 20)
  | .max d a b => some (wordSr 0x01 d a b 21)
  | .minn d a b => some (wordSr 0x01 d a b 22)
  | .maxn d a b => some (wordSr 0x01 d a b 23)
  | .clz d a => some (wordSr 0x01 d a 0 24)
  | .ctz d a => some (wordSr 0x01 d a 0 25)
  | .popc d a => some (wordSr 0x01 d a 0 26)
  | .addi d a i => some (wordSi 0x02 d a i.toNat)
  | .andi d a i => some (wordSi 0x03 d a i.toNat)
  | .ori d a i => some (wordSi 0x04 d a i.toNat)
  | .xori d a i => some (wordSi 0x05 d a i.toNat)
  | .slti d a i => some (wordSi 0x06 d a i.toNat)
  | .ldB d a i => some (wordSi 0x08 d a i.toNat)
  | .ldBn d a i => some (wordSi 0x09 d a i.toNat)
  | .ldH d a i => some (wordSi 0x0A d a i.toNat)
  | .ldHn d a i => some (wordSi 0x0B d a i.toNat)
  | .ldW d a i => some (wordSi 0x0C d a i.toNat)
  | .ldWn d a i => some (wordSi 0x0D d a i.toNat)
  | .ldD d a i => some (wordSi 0x0E d a i.toNat)
  | .stB d a i => some (wordSi 0x10 d a i.toNat)
  | .stH d a i => some (wordSi 0x11 d a i.toNat)
  | .stW d a i => some (wordSi 0x12 d a i.toNat)
  | .stD d a i => some (wordSi 0x13 d a i.toNat)
  | .beq d a i => some (wordSi 0x18 d a i.toNat)
  | .bne d a i => some (wordSi 0x19 d a i.toNat)
  | .blt d a i => some (wordSi 0x1A d a i.toNat)
  | .bge d a i => some (wordSi 0x1B d a i.toNat)
  | .bltn d a i => some (wordSi 0x1C d a i.toNat)
  | .bgen d a i => some (wordSi 0x1D d a i.toNat)
  | .bsa g b o => some (wordSi 0x1E g b o.toNat)
  | .loopv a o => some (wordSi 0x1F a 0 o.toNat)
  | .jal d o => some (wordSj 0x20 d o.toNat)
  | .jalr d a i => some (wordSi 0x21 d a i.toNat)
  | .lui d i => some (wordSj 0x22 d i.toNat)
  | .aipc d i => some (wordSj 0x23 d i.toNat)
  | .vfetch o => some (wordSj 0x24 0 o.toNat)
  | .vfetchReg a i => some (wordSi 0x25 0 a i.toNat)
  | .loopst a s o => some (wordSi 0x26 a s.toNat o.toNat)
  | .setvl d a w => some (wordSr 0x27 d a 0 (16 * w.toNat))
  | .settl d a => some (wordSr 0x27 d a 0 1)
  | .stripend => some (wordSr 0x27 0 0 0 2)
  | .csrr d c => some (wordSi 0x28 d 0 c.toNat)
  | .csrw a c => some (wordSi 0x29 0 a c.toNat)
  | .csrs a c => some (wordSi 0x2A 0 a c.toNat)
  | .csrc a c => some (wordSi 0x2B 0 a c.toNat)
  | .scall a => some (wordSr 0x2C 0 a 0 0)
  | .trap a => some (wordSr 0x2C 0 a 0 1)
  | .eret => some (wordSr 0x2C 0 0 0 2)
  | .wfm => some (wordSr 0x2C 0 0 0 3)
  | .fadd d a b r z => some (wordSr 0x2D d a b (r.toNat * 128 + bitAt z 64))
  | .fsub d a b r z => some (wordSr 0x2D d a b (r.toNat * 128 + bitAt z 64 + 1))
  | .fmul d a b r z => some (wordSr 0x2D d a b (r.toNat * 128 + bitAt z 64 + 2))
  | .fdiv d a b r z => some (wordSr 0x2D d a b (r.toNat * 128 + bitAt z 64 + 3))
  | .fsqrt d a r z => some (wordSr 0x2D d a 0 (r.toNat * 128 + bitAt z 64 + 4))
  | .fmin d a b z => some (wordSr 0x2D d a b (bitAt z 64 + 5))
  | .fmax d a b z => some (wordSr 0x2D d a b (bitAt z 64 + 6))
  | .fcmp d a b z c => some (wordSr 0x2D d a b (bitAt z 64 + c.toNat * 16 + 7))
  | .fcvt d a r z c => some (wordSr 0x2D d a 0 (r.toNat * 128 + bitAt z 64 + c.toNat * 16 + 8))
  | .fcvtToInt d a r z c => some (wordSr 0x2D d a 0 (r.toNat * 128 + bitAt z 64 + c.toNat * 16 + 9))
  | .fma d a b c r z => some (wordSr 0x2E d a b (c.val * 32 + r.toNat * 4 + bitAt z 2))
  | .cp d p => some (wordSr 0x30 d p 0 0)
  | .cpG d p v x q k => some (wordSr 0x31 d p (v.toNat % 32) (v.toNat / 32 * 32 + bitAt x 16 + bitAt q 8 + k.toNat))
  | .cpS d p v x q k => some (wordSr 0x32 d p (v.toNat % 32) (v.toNat / 32 * 32 + bitAt x 16 + bitAt q 8 + k.toNat))
  | .rget d p e => some (wordSr 0x33 d p e 0)
  | .rput d p e => some (wordSr 0x34 d p e 0)
  | .ratom d a b o z p => some (wordSr 0x35 d a b (o.toNat * 32 + bitAt z 16 + p.toNat))
  | .await k m g => some (wordSr 0x36 k m 0 (bitAt g 1))
  | .awaitany d l m n i g => some (wordSr 0x37 d l m (n.toNat * 4 + bitAt i 2 + bitAt g 1))
  | .sinit d a b => some (wordSr 0x38 d a b 0)
  | .expect a b => some (wordSr 0x39 0 a b 0)
  | .arrive k b => some (wordSr 0x3A k 0 b 0)
  | .sgen d k => some (wordSr 0x3B d k 0 0)
  | .tkmake d a b => some (wordSr 0x3C d a b 0)
  | .ldfe d a e r => some (wordSr 0x3D d a e (bitAt r 4))
  | .stfe s a e r => some (wordSr 0x3D s a e (bitAt r 4 + 1))
  | .feset a e r => some (wordSr 0x3D 0 a e (bitAt r 4 + 2))
  | .feclr a e r => some (wordSr 0x3D 0 a e (bitAt r 4 + 3))
  | .amo d a b s o z p => some (wordSr 0x3E d a b (s.toNat * 128 + o.toNat * 32 + bitAt z 16 + p.toNat))
  | .fenceRel s => some (wordSr 0x3F 0 0 0 (s.toNat * 8))
  | .fenceAcq s => some (wordSr 0x3F 0 0 0 (s.toNat * 8 + 1))
  | .fenceAr s => some (wordSr 0x3F 0 0 0 (s.toNat * 8 + 2))
  | .fenceSc s => some (wordSr 0x3F 0 0 0 (s.toNat * 8 + 3))
  | .lsync => some (wordSr 0x3F 0 0 0 4)
  | .msend t a u y => some (wordSr 0x40 t a 0 (u.toNat * 256 + y.toNat))
  | .spawn d a n => some (wordSr 0x41 d a 0 n.toNat)
  | .yield => some (wordSr 0x42 0 0 0 0)
  | .cexit => some (wordSr 0x42 0 0 0 1)
  | .galloc d s l => some (wordSr 0x43 d 0 s l.toNat)
  | .gfree a => some (wordSr 0x44 0 a 0 0)
  | .gdecl d a => some (wordSr 0x45 d a 0 0)
  | .gstep g j => some (wordSr 0x45 0 g j 1)
  | .gwait g j => some (wordSr 0x45 0 g j 2)
  | .gdrop g => some (wordSr 0x45 0 g 0 3)
  | _ => none

/-- The major and the fields of an E-word's instruction (R148); none for the instructions that are no E-word. -/
def majorOf (i : Instr) : Option (Nat × EWord) :=
  match i with
  | .vnop w => some (0x01, w)
  | .vstop w => some (0x02, w)
  | .vadd w => some (0x10, w)
  | .vsub w => some (0x11, w)
  | .vmul w => some (0x12, w)
  | .vfma w => some (0x13, w)
  | .vfms w => some (0x14, w)
  | .vfnma w => some (0x15, w)
  | .vdiv w => some (0x16, w)
  | .vsqrt w => some (0x17, w)
  | .vrsqrt w => some (0x18, w)
  | .vrcp w => some (0x19, w)
  | .vexp2 w => some (0x1A, w)
  | .vlog2 w => some (0x1B, w)
  | .vmin w => some (0x1C, w)
  | .vmax w => some (0x1D, w)
  | .vabs w => some (0x1E, w)
  | .vneg w => some (0x1F, w)
  | .vmulh w => some (0x20, w)
  | .vsadd w => some (0x21, w)
  | .vssub w => some (0x22, w)
  | .vshl w => some (0x28, w)
  | .vshr w => some (0x29, w)
  | .vsra w => some (0x2A, w)
  | .vand w => some (0x2B, w)
  | .vor w => some (0x2C, w)
  | .vxor w => some (0x2D, w)
  | .vnot w => some (0x2E, w)
  | .vclz w => some (0x2F, w)
  | .vpopc w => some (0x30, w)
  | .vcmp w => some (0x38, w)
  | .kand w => some (0x40, w)
  | .kor w => some (0x41, w)
  | .kxor w => some (0x42, w)
  | .knot w => some (0x43, w)
  | .ksbf w => some (0x44, w)
  | .ksif w => some (0x45, w)
  | .ksof w => some (0x46, w)
  | .kpopc w => some (0x47, w)
  | .kfirst w => some (0x48, w)
  | .vmerge w => some (0x50, w)
  | .vmergeF w => some (0x51, w)
  | .vslideup w => some (0x58, w)
  | .vslidedn w => some (0x59, w)
  | .vperm w => some (0x5A, w)
  | .vcompress w => some (0x5B, w)
  | .vexpand w => some (0x5C, w)
  | .viota w => some (0x5D, w)
  | .vid w => some (0x5E, w)
  | .vbcast w => some (0x5F, w)
  | .vmovx w => some (0x60, w)
  | .vins w => some (0x61, w)
  | .vredsum w => some (0x68, w)
  | .vredmax w => some (0x69, w)
  | .vredmin w => some (0x6A, w)
  | .vscanAdd w => some (0x6B, w)
  | .vscanMax w => some (0x6C, w)
  | .vcvt w => some (0x70, w)
  | .vscale w => some (0x71, w)
  | .vld w => some (0x80, w)
  | .vlds w => some (0x81, w)
  | .vldx w => some (0x82, w)
  | .vldff w => some (0x83, w)
  | .vldg w => some (0x84, w)
  | .vpref w => some (0x85, w)
  | .vst w => some (0x88, w)
  | .vsts w => some (0x89, w)
  | .vstx w => some (0x8A, w)
  | .vstg w => some (0x8B, w)
  | .vsqCommit w => some (0x8C, w)
  | .vsqDrop w => some (0x8D, w)
  | .mstart w => some (0xA0, w)
  | .mstop w => some (0xA1, w)
  | .mzero w => some (0xA2, w)
  | .opa w => some (0xA3, w)
  | .ops w => some (0xA4, w)
  | .opaSp w => some (0xA5, w)
  | .mld w => some (0xA6, w)
  | .mst w => some (0xA7, w)
  | .mlatch w => some (0xA8, w)
  | .mrot w => some (0xA9, w)
  | .mmovV w => some (0xAA, w)
  | .vmovM w => some (0xAB, w)
  | .mcvt w => some (0xAC, w)
  | _ => none

/-- The E-word of an instruction as a number (R143, R148). -/
def encodeE (i : Instr) : Option Nat :=
  match majorOf i with
  | some (m, w) => some (m * 2 ^ 56 + ewordBits w)
  | none => none

/-- The bits of an instruction with their count; a sub-step of the machine has none (R134). -/
def encode (i : Instr) : Option (Nat × Nat) :=
  match encodeS i with
  | some w => some (32, w)
  | none =>
    match encodeE i with
    | some w => some (64, w)
    | none => none

end Sys2Proof
end

