-- ==== Sys2Proof/Config.lean ====
section
/-! DEFINITION. The constants of the module (spec 01, R9 to R18) and the free values the spec leaves open. -/

namespace Sys2Proof.Config

/-- Enabled cores of the module (R9, R10). -/
def cores : Nat := 1088
/-- Enabled cores of a quadrant (R9). -/
def coresPerQuadrant : Nat := 272
/-- Physical cores of a quadrant, the 16 spares included (R9). -/
def physicalPerQuadrant : Nat := 288
/-- Bytes of a core's scratchpad (R11). -/
def spadBytes : Nat := 1048576
/-- Bytes of a core's vector storage (R11). -/
def vectorBytes : Nat := 131072
/-- First physical address past device memory (R333). -/
def deviceEnd : Nat := 0xC000000000
/-- First paged address that cannot hold a sync word (R87, R90). -/
def syncEnd : Nat := 0x7F80000000
/-- Registrations of waiters that a home atomic unit holds (R91). -/
def maxWaiters : Nat := 256
/-- L2 slices of the module (R362). -/
def slices : Nat := 320
/-- Bytes of the health table (R362). -/
def healthBytes : Nat := 0x56A80
/-- Bytes of the contexts that a core's context cache holds (R29). -/
def cacheBytes : Nat := 393216
/-- First GRAN that names a scratchpad word (R90). -/
def granSpad : Nat := 0x7F8000000
/-- Coroutines a core keeps at most (R29). -/
def maxCoroutines : Nat := 1024
/-- Contexts resident in a core's context cache (R29). -/
def residentSlots : Nat := 48
/-- Pending asynchronous traps a core queues (R298). -/
def maxAsyncTraps : Nat := 64
/-- Events a firmware core queues (R326). -/
def maxEvents : Nat := 256
/-- Hardware slots of a launch processor (R309). -/
def maxSlots : Nat := 64
/-- Grids a gang may hold on an endpoint (R265). -/
def maxGrids : Nat := 256
/-- Copies a core queues (R248). -/
def maxCopies : Nat := 256
/-- Copies with a vector-register destination a coroutine may have outstanding (R62, R250). -/
def maxRegCopies : Nat := 8
/-- Records of the Eft's persistent log (R395). -/
def logRecords : Nat := 8192
/-- Bursts of a DRAM row: 1 KiB in 64-byte bursts (R369). -/
def rowBursts : Nat := 16
/-- Spare rows of a pseudo-channel (R369). -/
def spareRows : Nat := 64
/-- Pages of a core's notice table (R99). -/
def noticeEntries : Nat := 16

/-- Physical address of the partition control area (R341); the boot record's choice, log entry 1. -/
def controlBase : Nat := 0x10000
/-- Physical address of the fabric control area (R378); log entry 1. -/
def fabricBase : Nat := 0x20000
/-- Physical address of the health table (R362); log entry 1. -/
def healthBase : Nat := 0x100000
/-- Physical address of the retirement pool descriptor (R370, R392); log entry 1. -/
def retirementPool : Nat := 0x30000
/-- Physical address of quadrant q's firmware root (R332, R392); log entry 1. -/
def firmwareRoot (q : Nat) : Nat := 0x1000000 + q * 0x800

/-- FREE VALUE (log entry 4). Cycles of the moving agent's own clock that pass in one step: the spec gives no
latencies (R321), so nothing constrains it. -/
opaque freeCycles : Nat → Nat

/-- FREE VALUE (log entry 4). Cycles of a launch processor's own clock that pass in one step, by tick and quadrant (R321). -/
opaque freeLaunchCycles : Nat → Nat → Nat

/-- FREE VALUE (log entry 23). The row number that CP.G or CP.S reads for an element past the end of its register, by
the tick and the element's index: the spec states none. -/
opaque freeRowNumber : Nat → Nat → Nat

/-- FREE VALUE (log entry 25). Where a row of a pseudo-channel lies in device memory, as a number of 1 KiB rows: the spec
gives no interleaving. -/
opaque freeRow : Nat → Nat → Nat

/-- FREE VALUE (log entry 56). The home atomic unit of a 64-byte line of device memory, as a number of an L2 slice: the spec gives
no interleaving of lines over slices. -/
opaque freeSlice : Nat → Nat

/-- FREE VALUE (log entry 26). KIND of the log record of a thermal trip, by its SEQ: the spec logs it and names no KIND. -/
opaque freeTripKind : Nat → Nat

/-- FREE VALUE (log entry 26). Whether a second has passed on the Eft's clock between two of its samples. -/
opaque freeSecond : Nat → Nat → Bool

/-- Trees of the Eft's LMS state, and the leaves of a tree of height 10 (R372, R395). -/
def lmsTrees : Nat := 64
def treeLeaves : Nat := 1024

/-- FREE VALUE (log entry 5). The ECDSA P-384 signature made as the n-th signature of the module, and the LMS signature made with
leaf n, as numbers: the keys are the module's own (R372, R393). -/
opaque freeEcdsa : Nat → Nat
opaque freeLms : Nat → Nat

/-- FREE VALUE (log entry 5). SHA-384 of some bytes (R393), and whether an ECDSA P-384 or an LMS signature of some bytes verifies under a
public key: the spec names these functions and does not define them. -/
opaque sha384 : List Byte → Nat
opaque ecdsaVerifies (key : Nat) (message : List Byte) (signature : Nat) : Bool
opaque lmsVerifies (key : Nat) (message : List Byte) (signature : Nat) : Bool

/-- FREE VALUE (log entry 5). A random 256-bit image key and a 32-bit salt, drawn at a tick; the AES-256-GCM tag of some bytes under a
key and an IV, and a key as it is wrapped under the pod sealing key (R388). -/
opaque freeImageKey : Nat → Nat
opaque freeSalt : Nat → Nat
opaque gcmTag (key iv : Nat) (bytes : List Byte) : Nat
opaque freeWrapped (pod key : Nat) : Nat

/-- FREE VALUE (log entry 5). The device identity: its certificate chain, its P-384 public key, and the pair of signatures that the identity
carries (R388, R393). -/
opaque freeChain : Nat
opaque identityKey : Nat
opaque identityEcdsa : Nat
opaque identityLms : Nat

/-- FREE VALUE (log entry 5). The public key of each of the 64 LMS trees, and the signature of the identity key that certifies it (R395). -/
opaque treeKey : Nat → Nat
opaque treeCertificate : Nat → Nat

/-- FREE VALUE (log entry 5). The key and the salt that the key schedule gives one direction of a port (0 sends, 1 receives) at a tick (R383);
the measurements of the firmware of an SVN (R382). -/
opaque freeSessionKey (tick port direction : Nat) : Nat
opaque freeSessionSalt (tick port direction : Nat) : Nat
opaque freeMeasurements : Nat → List Byte

/-- FREE VALUE (log entry 74). The bytes of a section of a freeze image whose layout the spec does not give, by tick, partition and
type (R329). -/
opaque freeSection : Nat → Nat → Nat → Nat

/-- FREE VALUE (log entry 83). The issue credits of a window that fit in the full module limit of 3,000 W, and those that 1,500 W take off;
those of a quadrant whose limit is whole, and those beyond one that each step takes off; the floor budget of a cluster (R397, R398). -/
opaque freeModuleCredits : Nat
opaque freeLimitCut : Nat
opaque freeQuadrantCredits : Nat
opaque freeQuadrantStep : Nat → Nat
opaque freeFloorCredits : Nat

end Sys2Proof.Config
end

