-- ==== Sys2Proof/Machine/State.lean ====
section
/-! DEFINITION. The state of the module as plain data: everything the spec gives the machine, the reasons a step can stop,
and the state right after reset (spec 03, 19 to 21, 23 to 25). Values the spec does not give are named in log entry 1. -/

namespace Sys2Proof.Machine

/-- Why the whole machine stands still: there is no such reason. Every trap the spec describes is taken and the machine goes
on, so no step raises a fault. Safe: nothing stops that the hardware would execute. -/
inductive Fault where
  deriving DecidableEq, Repr

/-- Why an instruction has no meaning. -/
inductive Refusal where
  /-- Raised by an arm of `exec` that has no meaning yet. Safe. -/
  | notModelled (mnemonic : String)
  deriving DecidableEq, Repr

/-- Access levels (R291). -/
inductive Level where
  | user | supervisor | firmware
  deriving DecidableEq, Repr

/-- What a scalar front end is doing. -/
inductive RunState where
  /-- No coroutine and no supervisor code. -/
  | idle
  | running
  /-- Stopped by a double fault or a drain (R298, R345). -/
  | stopped
  /-- Waiting in WFM (R300). -/
  | wfm
  /-- An MROT waits at the ring (R241). -/
  | ring
  /-- A STALL VLDG is held; the token is the ghost-word token it waits for (R226, R130). -/
  | stall (tok : Word)
  /-- Held in place until `u` units for endpoint `ep` are held (R35, R224). -/
  | units (ep u : Nat)
  /-- Waiting for the answer to request `rid` (R121, R224, R252). -/
  | remote (rid : Nat)
  /-- A full/empty operation is held in place at its home unit (R291). -/
  | fe
  deriving DecidableEq, Repr

/-- A byte of storage: device memory, host memory, or a core's scratchpad (R16, R81, R387). -/
inductive Loc where
  | dev (a : Nat)
  | host (a : Nat)
  | spad (cid off : Nat)
  deriving DecidableEq, Repr

/-- One byte-addressed memory in canonical form: `cells` strictly rising with no entry equal to the unlisted value, the
empty full/empty words and the poisoned words as strictly rising word numbers (R3, R85, R360). -/
structure Mem where
  cells : List Host.Cell
  empty : List Nat
  poison : List Nat
  deriving DecidableEq, Repr

/-- A 64-bit word of a register file: kind 0 vector, 1 mask, 2 tile, 3 latch, 4 scalar (R360), and the model's own kinds 6, RACC (log
entry 63), and 7, VL and TL (log entry 68). -/
structure RegWord where
  kind : Nat
  num : Nat
  word : Nat
  deriving DecidableEq, Repr

/-- A strip's checkpoint (R38, R73), with the poison marks of the registers it holds (R360). -/
structure Checkpoint where
  pc : Word
  x : Vector Word 32
  k : Vector Nat 8
  vl : Nat
  tl : Nat
  lps : Word
  fmask : Nat
  vstart : Nat
  flags : Word
  sCount : Nat
  eCount : Nat
  poison : List RegWord
  deriving DecidableEq, Repr

/-- A coroutine's registers (R44 to R61). A vector register, mask, tile or latch is its memory image as one number, byte 0
lowest. `sCount` and `eCount` are the S-words and the E-words of ICNT (R58, R72). -/
structure Ctx where
  pc : Word
  x : Vector Word 32
  vl : Nat
  tl : Nat
  vn : Nat
  m : Bool
  fcsr : Word
  fmask : Nat
  vstart : Nat
  lps : Word
  srseed : Word
  cbyp : Nat
  tiernote : Bool
  k : Vector Nat 8
  v : Vector Nat 64
  t : Vector Nat 4
  bl : Nat
  racc : Vector Word 32
  rstat : Word
  sCount : Nat
  eCount : Nat
  strip : Option Checkpoint
  poison : List RegWord
  deriving DecidableEq, Repr

/-- A pending store element (R219): its index for VSQ.COMMIT (R220), its address, and for each byte the place translated
at issue, the data and the bits written; `lines` are the lines of the entries it was translated through (R336). An element
of a remote form has no bytes here: it names its endpoint and the request it belongs to (R223). `whole` are the memory words that its
E-word fills with clean elements, of which this is the last (R360), and `tiers` its tier pages (R99). -/
structure Pend where
  idx : Nat
  addr : Word
  bytes : List (Loc × Nat × Nat)
  lines : List Nat
  remote : Option (Nat × VecReq)
  poisoned : Bool
  whole : List Loc
  tiers : List (Nat × Nat)
  deriving DecidableEq, Repr

/-- An element block in flight or suspended (R141, R183, R299); `bad` names the snapshot entries of poisoned registers (R360).
`fault` ends the words where their fetch fails (R135), and `raise` is the fault of the E-word at hand, which waits for the checking point of
its elements below it (R214, R356). -/
structure Block where
  addr : Word
  words : List Word
  fault : Option Trap
  raise : Option Trap
  idx : Nat
  snap : List Word
  vl : Nat
  tl : Nat
  p : Nat
  rm : Nat
  vstart : Nat
  bad : List Nat
  sCount : Nat
  inStrip : Bool
  user : Bool
  deriving DecidableEq, Repr

/-- A checked lane of an E-word whose checking point is not passed (R232, R355): the words of its group on that lane, the
flags of that group, FCSR's flags without the groups not yet checked (R357), and the scratchpad bytes leased (R233). -/
structure Unchecked where
  lane : Nat
  group : List RegWord
  flags : Nat
  base : Nat
  leases : List (Nat × Nat)
  deriving DecidableEq, Repr

/-- A scalar front end with the coroutine it runs (R292 to R295, R298 to R302); `issued` is the inbox count at the issue of
an AWAITANY that waits in place and `tokens` the list it read at that issue (R254, R323). Counts of cycles: `ran` since its coroutine started running (R32), `asked`
since a pre-emption came due (R33, R305), `due` since an asynchronous trap did (R298), `held` since a VLDG or MROT waits (R130,
R241), and `pped` since PP was set (R305, R328);
`committing` once a close of its open strip has committed a store (R177), and `traps` those that wait for the next boundary of a hart without a
coroutine (R260); `pended` while an asynchronous trap that pended under INTRAP is due at the next boundary (R298). `ahead` lists the words fetched
ahead of execution: execute kind, address and bits (R136). -/
structure Hart where
  ctx : Ctx
  level : Level
  run : RunState
  occ : Option (Nat × Nat)
  pend : List Pend
  blocks : List Block
  suspended : List Block
  sstatus : Word
  stvec : Word
  sepc : Word
  scause : Word
  stval : Word
  stval2 : Word
  sblka : Word
  sword : Word
  sscratch : Vector Word 4
  lazy : Option Ctx
  aside : List (Option Checkpoint)
  switchReq : Bool
  preemptReq : Bool
  pended : Bool
  committing : Bool
  traps : List Trap
  ran : Nat
  asked : Nat
  due : Nat
  held : Nat
  pped : Nat
  rho : Nat
  unchecked : List Unchecked
  issued : Option Nat
  tokens : Option (List Word)
  ahead : List (Nat × Nat × Nat)
  deriving DecidableEq, Repr

/-- What an awaiting coroutine waits for (R26, R60). -/
inductive WaitFor where
  | ready
  /-- Tokens of AWAIT, AWAITANY, GSTEP, GWAIT or a rolled-back VLDG; `inbox` if a new inbox record also ends the wait; `list`
  is the token list's address; `uninit` the token whose word a test found with V = 0 (R91); `hits` the tokens of other endpoints
  known to be signalled; the instruction at the PC completes into register `dest`, or runs again under `redo` (R127, R130). -/
  | token (toks : List Word) (inbox : Bool) (list : Word) (uninit : Option Word) (hits : List Nat) (dest : Nat) (redo : Bool)
  | fe (stfe : Bool) (addr : Word)
  /-- Units for endpoint `ep`; `u` of them are needed (R35), and the endpoint's group when the wait began (R378). -/
  | allowance (ep u group : Nat)
  /-- AWAITANY of the inbox alone (R254). -/
  | inbox (dest : Nat)
  deriving DecidableEq, Repr

/-- A copy record (R62); `ep` is the endpoint of an RGET (log entry 24). -/
structure CopyRec where
  vd : Nat
  vstart : Nat
  count : Nat
  pblk : Word
  token : Word
  id : Word
  ep : Nat
  sup : Bool
  deriving DecidableEq, Repr

/-- A coroutine of a core (R21, R25, R26, R29, R31). `ctx` is its saved context while it does not run; `hold` while a freeze
or a lease keeps it pre-empted (R328, R367); `kc` is the KC of the hart that saved it, `slot` the byte of the context region at
which its spilled record begins, `away` while a thawed record waits for room on its core (R330), and `refusal` the cause of a
restore that its record's check refused (R58, R59, R307); `inboxRec` the core and unit of a handler's inbox record (R23). -/
structure Coro where
  gid : Nat
  coid : Nat
  home : Nat
  running : Bool
  wait : WaitFor
  met : Bool
  pre : Bool
  base : Nat
  promo : Nat
  readyAt : Int
  rage : Nat
  ctx : Ctx
  live : Nat
  msave : Bool
  resident : Bool
  copyRecs : List CopyRec
  inboxRec : Option (Nat × Nat)
  traps : List Trap
  inboxMark : Nat
  hold : Bool
  kc : Nat
  slot : Nat
  away : Bool
  refusal : Option Cause
  deriving DecidableEq, Repr

/-- A record of the inbox ring (R92 to R94): `made` once its handler coroutine exists, `raised` once MSG_NOHANDLER has been
raised for it (R23). -/
structure InboxRec where
  unit : Nat
  units : Nat
  pad : Bool
  msg : Msg
  made : Bool
  raised : Bool
  released : Bool
  deriving DecidableEq, Repr

/-- A line of a combining buffer (R113, R380): the written bytes of one 64-byte line at another endpoint, and those whose
source is poisoned (R360); `since` is CYCLE at its first store, `due` once it has been asked to leave. -/
structure CombLine where
  ep : Nat
  line : Nat
  bytes : List (Nat × Byte)
  bad : List Nat
  owner : Nat × Nat
  since : Nat
  due : Bool
  deriving DecidableEq, Repr

/-- A committed remote store or a combining-buffer line that waits to leave with `u` units (R113, R225), with its endpoint's group when
it began to wait (R378). -/
structure RemoteStore where
  ep : Nat
  gid : Nat
  coid : Nat
  op : ReqOp
  u : Nat
  group : Nat
  deriving DecidableEq, Repr

/-- A core (R11, R292 to R296, R304). `refused` names the messages answered with a NACK and not yet placed (R92, R96), by
source endpoint, source CID and SEQ; `spillWaits` while a spill waits for room in the context region, `roomWaits` while a new context
does, and `stuck` the harts whose saved context waits for it (R29, R307);
`notice` holds pages by address and root (R99). -/
structure Core where
  kc : Nat
  quantum : Nat
  mvtbase : Word
  ovfbase : Word
  ctxbase : Word
  ctxsize : Word
  ctxarg : Nat
  ctxBusy : Bool
  ctxErr : Bool
  ctxGid : Nat
  ctxCoid : Nat
  inboxUnits : Nat
  inboxOff : Nat
  ovfSize : Nat
  ovfQuota : Nat
  evhart : Nat
  cycle : Nat
  spad : Mem
  inbox : List InboxRec
  inboxW : Nat
  inboxSeen : Nat
  ovf : List Msg
  ovfW : Nat
  holds : List Nat
  refused : List (Nat × Nat × Nat)
  generated : List Msg
  asyncs : List Trap
  asyncsWaiting : List Trap
  coros : List Coro
  notice : List (Nat × Nat)
  comb : List CombLine
  outq : List RemoteStore
  xfers : Nat
  fullCheck : Bool
  spillWaits : Bool
  roomWaits : Bool
  stuck : List Nat
  phys : Nat
  deriving DecidableEq, Repr

/-- A gang (R20, R263, R317, R318); `keys` are the GRIDKEYs it has declared (R42, R267). -/
structure Gang where
  gid : Nat
  part : Nat
  classS : Bool
  cores : List Nat
  kc : Nat
  spad : Nat
  heapBase : Nat
  heapSize : Nat
  heap : List (Nat × Nat)
  nextCoid : Nat
  prio : Nat
  ending : Bool
  notify : Bool
  mring : Bool
  quad : Nat
  qsb : Nat
  donek : Word
  job : Option (Nat × Nat × Nat × Bool)
  cancelled : Bool
  keys : List Nat
  deriving DecidableEq, Repr

/-- A copy's parameter block (R246). -/
structure Params where
  dm1 : Nat
  sk : Nat
  dk : Nat
  tk : Bool
  cm : Bool
  tier : Bool
  esz : Nat
  vd : Nat
  mtype : Nat
  src : Word
  dst : Word
  e2 : Nat
  e1 : Nat
  e0 : Nat
  ss1 : Word
  ss2 : Word
  ds1 : Word
  ds2 : Word
  token : Word
  user : Word
  ep : Nat
  deriving DecidableEq, Repr

/-- Why a copy or a push does not move (R98, R337). -/
inductive Held where
  | no
  | walk (t : Trap)
  | page (va : Nat)
  | units (ep u : Nat)
  deriving DecidableEq, Repr

/-- A copy in flight (R248 to R251): `rows` lists the rows of a gather or scatter; `landed` the byte ranges landed per row;
`paid` the bytes contributed; `first` while no packet has been sent; `reported` the last translation fault raised for it
(R337); `vlz` where supervisor code issued it with the coroutine's vector state set aside (R302). -/
structure Copy where
  id : Word
  cid : Nat
  gid : Nat
  coid : Nat
  sup : Bool
  p : Params
  pblk : Word
  rows : Option (List (Word × Word))
  landed : List (Nat × Nat × Nat)
  total : Nat
  got : Nat
  paid : Nat
  vstart : Nat
  held : Held
  first : Bool
  reported : Option Trap
  agent : Agent
  vlz : Bool
  deriving DecidableEq, Repr

/-- A page-in in flight (R98, R338, R339); `pte` is the entry as the page-in found it, `waiters` the copies held on it in the
order in which they met the page. -/
structure PageIn where
  part : Nat
  root : Nat
  va : Nat
  size : Nat
  entry : Nat
  cid : Nat
  pte : Nat
  token : Word
  frame : Option Nat
  noframe : Bool
  waiters : List Word
  deriving DecidableEq, Repr

/-- A contribution held on an unreachable or leased word (R233, R399); `gen` is the generation that the Skink gives a grid's word
instead (R128), and `reported` the fault last raised for it. -/
structure HeldContribution where
  tok : Word
  n : Nat
  who : Contributor
  root : Nat
  user : Bool
  xfer : Word
  gen : Option Nat
  reported : Option Trap
  deriving DecidableEq, Repr

/-- A registration of a waiter on the sync word of a granule (R91). -/
structure Waiter where
  gran : Nat
  loc : Loc
  who : Contributor
  deriving DecidableEq, Repr

/-- Who a full/empty operation belongs to (R86, R256, R291). -/
inductive FeOwner where
  | coro (cid gid coid : Nat) (d : Nat)
  | hart (a : Agent) (d : Nat)
  | remote (sep scid rid : Nat)
  deriving DecidableEq, Repr

/-- A full/empty operation held at its home unit (R86); `lines` are the lines of the entries it was translated through
(R336). -/
structure FeHeld where
  loc : Loc
  lines : List Nat
  stfe : Bool
  v : Word
  who : FeOwner
  deriving DecidableEq, Repr

/-- A block of a declared grid (R124, R127, R128): its published step, whether the strips of that step are unread, the
ghost-complete step plus one minus STEP0, the landed parts as (region, step, part), and the fault last reported for the read
of its strips (R337); `stepper` is the coroutine whose GSTEP published that step. -/
structure GBlock where
  j : Nat
  pub : Option Nat
  unread : Bool
  complete : Nat
  tags : List (Nat × Nat × Nat)
  parts : List (Nat × Nat × Nat)
  reported : Option Trap
  stepper : Option Nat
  deriving DecidableEq, Repr

/-- A declared grid (R122, R265). -/
structure Grid where
  gid : Nat
  part : Nat
  handle : Nat
  desc : List Word
  blocks : List GBlock
  deriving DecidableEq, Repr

/-- What names a push of this device: its gang, the destination region, its part of it and the step. -/
structure PushId where
  part : Nat
  gid : Nat
  key : Nat
  blk : Nat
  region : Nat
  piece : Nat
  step : Nat
  deriving DecidableEq, Repr

/-- A halo push read and not landed (R127, R132, R267): the elements are bytes by offset in the destination frame, with
their poison. `sn` is its number at this source, and `begun` says that some of it has landed (R42). -/
structure Push where
  sn : Nat
  cid : Nat
  gid : Nat
  coid : Nat
  part : Nat
  key : Nat
  ep : Nat
  blk : Nat
  region : Nat
  piece : Nat
  step : Nat
  els : List (Nat × List Byte × Bool)
  srcKey : Nat
  started : Bool
  begun : Bool
  held : Held
  deriving DecidableEq, Repr

/-- The name of a push. -/
def Push.id (p : Push) : PushId :=
  { part := p.part, gid := p.gid, key := p.key, blk := p.blk, region := p.region, piece := p.piece, step := p.step }

/-- A firmware event (R327). -/
structure FwEvent where
  code : Nat
  arg : Nat
  arg2 : Nat
  deriving DecidableEq, Repr

/-- A hardware slot with the working fields of its queue (R309, R310, R322). -/
structure Slot where
  qsb : Nat
  qctl : Word
  rdidx : Nat
  wdcount : Nat
  done : Nat
  ftoken : Word
  fval : Word
  deriving DecidableEq, Repr

/-- A quadrant's launch processor and the CSRs of its firmware core (R309, R326). `reported` holds the bad links already
reported: the place of the link, its value, and the place of the QCTL it names (R311). `turn` is a turn that waits for room in the event
queue: the priority it has reached, and whether it has started a packet (R312, R326). -/
structure Quad where
  run : Bool
  idle : Bool
  rlhead : Vector Word 8
  epoch : Nat
  qbmbase : Word
  qbmSet : Bool
  parthalt : Nat
  ftimer : Nat
  ftcmp : Word
  armed : Bool
  events : List FwEvent
  waiting : List FwEvent
  fevarg : Word
  slots : List Slot
  served : Vector Nat 8
  reported : List (Nat × Nat × Nat)
  turn : Option (Nat × Bool)
  deriving DecidableEq, Repr

/-- Where a waiting request's units go (R35). -/
inductive UnitOwner where
  | coro (cid gid coid : Nat)
  | hart (a : Agent)
  | copy (id : Word)
  | stores (cid : Nat)
  | push (p : PushId)
  deriving DecidableEq, Repr

/-- A request that waits for units (R35): `got` units are held for it. -/
structure UnitWait where
  ep : Nat
  u : Nat
  got : Nat
  who : UnitOwner
  deriving DecidableEq, Repr

/-- What a response to a sent request does here (R224, R225, R247, R252 to R256, R260). -/
inductive Cont where
  | ratom (a : Agent) (d : Nat) (dbl : Bool)
  | fe (a : Agent) (d : Nat) (ld : Bool)
  /-- A full/empty operation of a coroutine that was set aside when its home unit held it (R86). -/
  | feCoro (cid gid coid d : Nat) (ld : Bool)
  | arrive (a : Agent)
  | sgen (a : Agent) (d : Nat) (tok : Word)
  /-- The `i`-th token read of an AWAIT or AWAITANY (R253, R254). -/
  | await (a : Agent) (i : Nat)
  | vload (a : Agent)
  /-- A piece of a copy: the row, and the bytes skipped and carried (R247, R249). -/
  | copy (id : Word) (row skip len : Nat)
  | contribution (who : Contributor) (id : Word) (n : Nat)
  | store (cid gid coid : Nat) (base : Word)
  | msg (cid gid coid : Nat)
  | register (cid gran : Nat)
  | push (p : PushId) (n : Nat)
  | wake
  deriving DecidableEq, Repr

/-- The way of a request: back to this device (R82), over a port, not yet sent because every port in RUN has its 4,096 requests
outstanding (R374), or over no port at all (R377). -/
inductive Way where
  | loopback
  | port (i : Nat)
  | queued
  | lost
  deriving DecidableEq, Repr

/-- A request of this device without an answer (R121, R225). -/
structure OutReq where
  rid : Nat
  way : Way
  ep : Nat
  cid : Nat
  part : Nat
  seq : Nat
  op : ReqOp
  cont : Cont
  deriving DecidableEq, Repr

/-- The device identity (R382, R388, R393): the certificate chain, the public key it ends in, and the pair of signatures it carries. -/
structure Identity where
  chain : Nat
  key : Nat
  ecdsa : Nat
  lms : Nat
  deriving DecidableEq, Repr

/-- What leaves the device (R374): what another endpoint or the host could observe. -/
inductive Packet where
  | request (port rid ep spart cid seq : Nat) (op : ReqOp)
  | response (sep scid rid : Nat) (r : Resp)
  | nack (sep scid rid : Nat)
  | hostData (port addr : Nat) (bs : List Byte)
  | spdm (port step : Nat)
  /-- The certificate of this device: its identity under the pair of signatures (R382, R393). -/
  | certificate (port : Nat) (own : Identity)
  /-- The measurement record of this device with its evidence block (R382). -/
  | measurements (port : Nat) (own : EvidenceBlock)
  /-- A FREEZE, THAW or management request before boot complete is refused (R391). -/
  | managementNack
  /-- Allowance units granted to a source endpoint (R34, R36). -/
  | grant (ep units : Nat)
  deriving DecidableEq, Repr

/-- A message the fabric interface keeps after a quota NACK (R96). -/
structure KeptMsg where
  ep : Nat
  cid : Nat
  gid : Nat
  coid : Nat
  dcid : Nat
  msg : Msg
  deriving DecidableEq, Repr

/-- A push of another endpoint held for a GRIDKEY that is not declared here (R127, R267): its partition, its source core and the
number it has there, its target, and whether a gang exit has discarded it (R42). -/
structure HeldPush where
  part : Nat
  sep : Nat
  scid : Nat
  sn : Nat
  key : Nat
  blk : Nat
  region : Nat
  piece : Nat
  step : Nat
  dropped : Bool
  deriving DecidableEq, Repr

/-- One direction of a port's session (R383): its key, the salt of its IVs and the flit counter. -/
structure Direction where
  key : Nat
  salt : Nat
  flits : Nat
  deriving DecidableEq, Repr

/-- What a fabric port keeps beside its PORT entry (R382 to R384): the SPDM steps done, whether the session stands, the session of each
direction, and the failed retrains in succession; `leaving` while a Molt withdrawal waits for its packets. -/
structure Port where
  spdm : Nat
  established : Bool
  send : Direction
  recv : Direction
  retrains : Nat
  leaving : Bool
  deriving DecidableEq, Repr

/-- The fabric side of the device (R34 to R37, R374 to R385, R400). `heldAt` lists the sources whose allowance this device holds at zero as a
destination, `heldFor` the destinations that hold this device's (R37); `rxSeq` is the SEQ acted on last for each source (R377);
`awaits` are the answers to token reads of a waiting instruction (R253). -/
structure Fabric where
  eid : Nat
  units : List (Nat × Nat)
  waits : List UnitWait
  heldAt : List Nat
  heldFor : List Nat
  ports : Vector Port 16
  sent : List OutReq
  nextRid : Nat
  txSeq : List ((Nat × Nat) × Nat)
  rxSeq : List ((Nat × Nat) × Nat)
  msgSeq : List ((Nat × Nat) × Nat)
  kept : List KeptMsg
  out : List Packet
  awaits : List (Agent × Nat × Bool × Nat)
  heldPushes : List HeldPush
  deriving DecidableEq, Repr

/-- A lease in progress (R364, R365, R367): the passes run, the CID a leased core served, and the spare that takes it. -/
structure MoltLease where
  kind : Nat
  index : Nat
  testing : Bool
  passes : Nat
  cid : Nat
  spare : Nat
  deriving DecidableEq, Repr

/-- The Molt and the row-sparing state (R363 to R370, R395). `standIns` names the slice that homes the lines of one out of service
(R366), and `lent` a row that stands on a spare only while its own is tested. -/
structure Molt where
  leases : List MoltLease
  exhausted : List Nat
  usedSpares : List (Nat × Nat × Nat)
  badSpares : List (Nat × Nat)
  remap : List (Nat × Nat)
  degraded : List (Nat × Nat)
  standIns : List (Nat × Nat)
  lent : List (Nat × Nat × Nat)
  deriving DecidableEq, Repr

/-- A record of the persistent log with its two signatures (R372). -/
structure LogRec where
  kind : Nat
  resource : Nat
  seq : Nat
  cycle : Nat
  score : Nat
  fails : Nat
  leases : Nat
  detail : Nat
  frame : Nat
  eid : Nat
  ecdsa : Nat
  lms : Nat
  deriving DecidableEq, Repr

/-- Alerts of the management interface (R298, R387, R393, R395, R398). -/
inductive Alert where
  | fwDoubleFault (q code : Nat)
  | bootFail
  | lmsExhausted
  | thermalTrip
  | hostLink (port : Nat) (up : Bool)
  | log (records : List (List Byte))
  | sensor (n value : Nat)
  deriving DecidableEq, Repr

/-- The Eft (R388, R391 to R398). Slot 0 is A and slot 1 is B. `fused` are the hashes of the two public keys, `runningSvn` the SVN of the
firmware that booted, and `evidence` the number and the LMS leaf, if one was left, of the signatures made over the evidence block of this boot (R393); `leaves` counts
the LMS leaves used and `signed` all signatures made. `portModes` is the mode field of the boot record at the last reset (R387).
`granted` holds the budget of each cluster's window and `budgets` the issue credits it has left (R397); `tripped` after a thermal trip
until the next reset, and `quadSteps` by how many steps a quadrant's limit has fallen (R398). -/
structure Eft where
  booted : Bool
  clocks : Bool
  tripped : Bool
  slotA : FwSlot
  slotB : FwSlot
  fused : Nat × Nat
  active : Nat
  runningSvn : Nat
  evidence : Nat × Option Nat
  portModes : Nat
  pending : Bool
  minSvn : Nat
  log : List LogRec
  nextSeq : Nat
  cycle : Nat
  leaves : Nat
  signed : Nat
  podKey : Option Nat
  sensors : List (Nat × Nat)
  moduleLimit : Nat
  lowered : List Nat
  quadSteps : Vector Nat 4
  throttled : List Nat
  granted : List (Nat × Nat)
  budgets : List (Nat × Nat)
  alerts : List Alert
  retired : List Nat
  flowLow : Option Nat
  deriving DecidableEq, Repr

/-- A queue of a frozen partition: its quadrant, QSB and place in its run list, its STATE before FROZEN, and its words
(R329, R330). -/
structure FrozenQueue where
  quad : Nat
  qsb : Nat
  pos : Nat
  state : Nat
  words : List Word
  deriving DecidableEq, Repr

/-- The trailer of a sealed image (R388): the salt of its IVs, the tag of each 64 KiB chunk, the image key and its wrapped form, the
device's identity with its certificate chain, the LMS tree's key with its certificate (R395), and the two signatures over the header and the
tags. -/
structure Seal where
  salt : Nat
  tags : List Nat
  imageKey : Nat
  wrapped : Nat
  identity : Identity
  lmsKey : Nat
  treeCert : Nat
  ecdsa : Nat
  lms : Nat
  deriving DecidableEq, Repr

/-- A sealed freeze image (R329, R388), kept as its contents: for each partition its cores with their hart counts and its
roots, the queues, the gangs with those cancelled, each core's allocations, rings and records, the engine states, what waits
elsewhere for its coroutines, the message counts (R400), and the pages in use as address ranges with their bytes. `key` is
the pod sealing key it is wrapped under and `trailer` its trailer; `headers` are the fields of each partition's header (offset, bytes and
value) and `records` the words of each copy-state record (R308, R329). -/
structure Image where
  addr : Nat
  eid : Nat
  key : Option Nat
  trailer : Seal
  cids : List (Nat × Nat × Nat)
  roots : List (Nat × Nat × Nat)
  queues : List FrozenQueue
  gangs : List Gang
  cancelled : List (Nat × Nat)
  cores : List (Nat × Core)
  copies : List Copy
  grids : List Grid
  pushes : List Push
  feHeld : List FeHeld
  contributions : List HeldContribution
  kept : List KeptMsg
  waits : List UnitWait
  sent : List OutReq
  seqs : List ((Nat × Nat) × Nat)
  ranges : List (Nat × Nat)
  pages : Mem
  headers : List (Nat × List (Nat × Nat × Nat))
  records : List (Word × List Nat)
  deriving DecidableEq, Repr

/-- The trailer of an image that is not sealed yet. -/
def unsealed : Seal :=
  { salt := 0, tags := [], imageKey := 0, wrapped := 0, identity := { chain := 0, key := 0, ecdsa := 0, lms := 0 }, lmsKey := 0
    treeCert := 0, ecdsa := 0, lms := 0 }

/-- What an image holds whichever device it lies on: all of it but its address, the key it is sealed under and its trailer. -/
def Image.contents (g : Image) : Image :=
  { g with addr := 0, key := none, trailer := unsealed }

/-- FREE VALUE (log entry 5). The bytes of a 64 KiB chunk of an image of some contents, encrypted under a key: the spec does not give every
section a layout (R329, R388). -/
opaque freeChunk (contents : Image) (key i : Nat) : List Byte

/-- A freeze between its first step and its image (R328): the queues with their states, and the gangs cancelled. -/
structure Freezing where
  mask : Nat
  image : Nat
  queues : List FrozenQueue
  cancelled : List (Nat × Nat)
  deriving DecidableEq, Repr

/-- A partition command taken and not ended (R342); `counts` are what a DRAIN that has begun writes into its fault record: gangs,
coroutines, copies and harts at supervisor level (R345, R347). -/
structure Command where
  part : Nat
  cmd : Nat
  accepted : Bool
  counts : List Nat
  deriving DecidableEq, Repr

/-- An error that a read of a memory word or a register word finds (R358): at a place, in word `w` of an agent's register file
or of the one its hart has set aside, or in a context that a core keeps for a coroutine. -/
inductive ErrorAt where
  | mem (l : Loc)
  | reg (a : Agent) (w : RegWord)
  | lazy (a : Agent) (w : RegWord)
  | saved (cid gid coid : Nat) (w : RegWord)
  deriving DecidableEq, Repr

/-- What an error came to (R358). -/
inductive ErrorKind where
  | corrected
  | reread
  | poisoned
  deriving DecidableEq, Repr

/-- Which agent moves next (log entry 3): an event of the table, a turn of one of an agent's two streams, or the free choice
of time; beside these, time brings errors of storage (R358), the grants this device makes as a destination (R36), fetches ahead
of execution (R136), the host's stores to its memory (R386) the flits a port sends (R383) and
the freeze images of other devices (R330). `kind` and
`index` name the resource of a word of device memory. -/
inductive Turn where
  | event (i : Instr)
  | front (a : Agent)
  | lanes (a : Agent)
  | error (e : ErrorAt) (k : ErrorKind) (kind index : Nat)
  | grant (ep units : Nat)
  /-- A front end fetches a word of an execute kind ahead of execution (R136). -/
  | ahead (a : Agent) (kind va : Nat)
  /-- The host stores to its own memory (R386). -/
  | hostStore (addr : Nat) (bs : List Byte)
  /-- A port sends a flit (R383). -/
  | flit (port : Nat)
  /-- The image of another device of the pod, or another copy of one, is laid at its address (R330, R389). -/
  | image (g : Image)
  /-- Whatever time brings. -/
  | free
  deriving DecidableEq, Repr

/-- FREE VALUE (log entry 3). What moves at a tick that nothing else settles: the interleaving of agents, and the events that
time, other endpoints, the host and the management interface bring. Nothing constrains it. -/
opaque freeTurn : Nat → Option Turn

/-- THE STATE OF THE MODULE. `hart` is the front end that `focus` names; `harts` holds the others that differ from a hart
after reset, and `cores` the cores that differ from a core after reset. -/
structure State where
  focus : Agent
  hart : Hart
  harts : List (Agent × Hart)
  cores : List (Nat × Core)
  quads : Vector Quad 4
  mem : Mem
  host : Mem
  hostUp : Vector Bool 2
  gangs : List Gang
  copies : List Copy
  pageins : List PageIn
  heldContributions : List HeldContribution
  waiters : List Waiter
  feHeld : List FeHeld
  grids : List Grid
  pushes : List Push
  roots : Vector (Nat × Nat) 16
  commands : List Command
  fabric : Fabric
  molt : Molt
  eft : Eft
  images : List Image
  freezing : List Freezing
  frozenBy : List (Nat × Nat)
  hostWrites : List (Nat × Nat × List Byte)
  agenda : List Turn
  tick : Nat
  deriving DecidableEq, Repr

/-- An empty memory: nothing listed, every word full, nothing poisoned. -/
def Mem.fresh : Mem := { cells := [], empty := [], poison := [] }

/-- A coroutine's registers at creation with VCFG.VN = `vn` (R21, R52); the registers of an idle hart. -/
def Ctx.fresh (vn : Nat) : Ctx :=
  { pc := 0, x := Vector.replicate 32 0, vl := 0, tl := 0, vn := vn, m := false, fcsr := 0, fmask := 0, vstart := 0,
    lps := 0, srseed := 0, cbyp := 0x100000, tiernote := false, k := Vector.replicate 8 0, v := Vector.replicate 64 0,
    t := Vector.replicate 4 0, bl := 0, racc := Vector.replicate 32 0, rstat := 0, sCount := 0, eCount := 0, strip := none,
    poison := [] }

/-- SSTATUS after reset: SVN is 3, every other field 0 (R294). -/
def sstatusReset : Word := 0x0030000000000000

/-- A front end after reset (R293 to R295; STVEC and SEPC: log entry 1). -/
def Hart.fresh (level : Level) (run : RunState) (c : Ctx) : Hart :=
  { ctx := c, level := level, run := run, occ := none, pend := [], blocks := [], suspended := [], sstatus := sstatusReset,
    stvec := 0, sepc := 0, scause := 0, stval := 0, stval2 := 0, sblka := 0, sword := 0, sscratch := Vector.replicate 4 0,
    lazy := none, aside := [], switchReq := false, preemptReq := false, pended := false, committing := false, traps := [], ran := 0, asked := 0, due := 0, held := 0, pped := 0, rho := 0,
    unchecked := [], issued := none, tokens := none, ahead := [] }

/-- The front end of an agent after reset: a core's hart is idle; a firmware core stands at its entry PC, firmware level,
with VCFG.VN = 2 (R291, R324, R391; entry PC 0: log entry 1). -/
def Hart.reset (a : Agent) : Hart :=
  match a with
  | .hart _ _ => Hart.fresh .user .idle (Ctx.fresh 0)
  | .fw _ => Hart.fresh .firmware .running (Ctx.fresh 2)

/-- A core after reset (R293, R296, R345, R391); it serves its CID from the physical core of the same place in its
quadrant (log entry 1). -/
def Core.reset (cid : Nat) : Core :=
  { kc := 0, quantum := 65536, mvtbase := 0, ovfbase := 0, ctxbase := 0, ctxsize := 0, ctxarg := 0, ctxBusy := false,
    ctxErr := false, ctxGid := 0, ctxCoid := 0, inboxUnits := 0, inboxOff := 0, ovfSize := 0, ovfQuota := 0, evhart := 0,
    cycle := 0, spad := Mem.fresh, inbox := [], inboxW := 0, inboxSeen := 0, ovf := [], ovfW := 0, holds := [],
    refused := [], generated := [], asyncs := [], asyncsWaiting := [], coros := [], notice := [], comb := [], outq := [],
    xfers := 0, fullCheck := false, spillWaits := false, roomWaits := false, stuck := [],
    phys := cid / Config.coresPerQuadrant * Config.physicalPerQuadrant + cid % Config.coresPerQuadrant }

/-- A launch processor and its firmware CSRs after reset (R326). -/
def Quad.reset : Quad :=
  { run := false, idle := true, rlhead := Vector.replicate 8 0, epoch := 0, qbmbase := 0, qbmSet := false, parthalt := 0,
    ftimer := 0, ftcmp := 0, armed := false, events := [], waiting := [], fevarg := 0, slots := [],
    served := Vector.replicate 8 0, reported := [], turn := none }

/-- A port without keys and session. -/
def Port.fresh : Port :=
  { spdm := 0, established := false, send := { key := 0, salt := 0, flits := 0 }, recv := { key := 0, salt := 0, flits := 0 }, retrains := 0,
    leaving := false }

/-- The fabric after reset: no units, no session (EID 0 and no units: log entry 1). -/
def Fabric.reset : Fabric :=
  { eid := 0, units := [], waits := [], heldAt := [], heldFor := [],
    ports := Vector.replicate 16 Port.fresh, sent := [], nextRid := 0,
    txSeq := [], rxSeq := [], msgSeq := [], kept := [], out := [], awaits := [], heldPushes := [] }

/-- The Molt after reset with no retirement state (R391; log entry 1). -/
def Molt.reset : Molt :=
  { leases := [], exhausted := [], usedSpares := [], badSpares := [], remap := [], degraded := [], standIns := [], lent := [] }

/-- A firmware slot of SVN 0 without a payload (log entry 1). -/
def slotReset : FwSlot := { svn := 0, payloads := [], hashes := [], ecdsa := 0, lms := 0, ecdsaKey := 0, lmsKey := 0, complete := true }

/-- What the sensors show at reset: zero, and a coolant flow of 2.0 L/min (log entry 1). -/
def sensorsReset : List (Nat × Nat) := (List.range 153).map fun n => (n, if n = 150 then 40 else 0)

/-- The Eft at boot complete (R391; what its persistent storage holds: log entry 1). -/
def Eft.reset : Eft :=
  { booted := true, clocks := true, tripped := false, slotA := slotReset, slotB := { slotReset with complete := false }, fused := (0, 0), active := 0,
    runningSvn := 0, evidence := (0, some 0), portModes := 5, pending := false, minSvn := 0, log := [], nextSeq := 0, cycle := 0, leaves := 1,
    signed := 1, podKey := none, sensors := sensorsReset, moduleLimit := 3000, lowered := [], quadSteps := Vector.replicate 4 0,
    throttled := [], granted := [], budgets := [], alerts := [], retired := [], flowLow := none }

/-- THE STATE RIGHT AFTER RESET: boot complete (R391), with the firmware core of quadrant 0 in view. -/
def State.reset : State :=
  { focus := .fw 0, hart := Hart.reset (.fw 0), harts := [], cores := [], quads := Vector.replicate 4 Quad.reset,
    mem := Mem.fresh, host := Mem.fresh, hostUp := Vector.replicate 2 true, gangs := [], copies := [], pageins := [],
    heldContributions := [], waiters := [], feHeld := [], grids := [], pushes := [], roots := Vector.replicate 16 (0, 0),
    commands := [], fabric := Fabric.reset, molt := Molt.reset, eft := Eft.reset, images := [], freezing := [], frozenBy := [], hostWrites := [],
    agenda := [], tick := 0 }

end Sys2Proof.Machine
end

