-- ==== Sys2Proof/Machine/Memory.lean ====
section
/-! DEFINITION. Memories in canonical form, the contents after reset, cores and harts by name, and bytes by place
(R3, R16, R85, R333, R360, R391). -/

namespace Sys2Proof.Machine

/-- Word i of the boot record (R392); its addresses are log entry 1. -/
def bootWord (i : Nat) : Nat :=
  match i with
  | 0 => 0x0100000000000005
  | 1 => Config.controlBase
  | 2 => Config.healthBase
  | 3 => Config.fabricBase
  | 4 => Config.retirementPool
  | 6 => Config.firmwareRoot 0
  | 7 => Config.firmwareRoot 1
  | 8 => Config.firmwareRoot 2
  | 9 => Config.firmwareRoot 3
  | _ => 0

/-- Word i of the tables at 0x1000000 that the boot record's firmware roots name (R392): each root maps the 2 MiB from address 0 to
themselves in pages of 64 KiB, and the page of the boot record read-only. DESIGN CHOICE (log entry 7): the spec says what is mapped
and not where. -/
def bootTable (i : Nat) : Nat :=
  if i < 0x400 then (if i % 0x100 = 0 then 2 ^ 63 + 0x1002000 else 0)
  else if i = 0x400 then 2 ^ 63 + 0x1003000
  else if i = 0x600 then 2 ^ 63 + 0x1004000
  else if i = 0x800 then 2 ^ 63 + 0x1005000
  else if 0xA00 ≤ i ∧ i < 0xA20 then 2 ^ 63 + (if i = 0xA00 then 0 else 2 ^ 59) + 2 ^ 56 + (i - 0xA00) * 0x10000
  else 0

/-- The health-table entry of a core after reset (R362, R391): 272 cores in service per quadrant, then 16 idle spares. -/
def healthReset (i : Nat) : Nat :=
  let r := i % Config.physicalPerQuadrant
  if r < Config.coresPerQuadrant then i / Config.physicalPerQuadrant * Config.coresPerQuadrant + r
  else 3 * 2 ^ 52 + 0x7FF

/-- What a byte of device memory reads as that nothing has written (R341, R362, R378, R391, R392): the boot record, the
core map, the destination-group map, the health table and the firmware roots' tables after reset, and zero elsewhere. -/
def resetByte (a : Nat) : Byte :=
  if a < 0x100 then BitVec.ofNat 8 (bootWord (a / 8) / 256 ^ (a % 8))
  else if Config.controlBase + 0x400 ≤ a ∧ a < Config.controlBase + 0x400 + Config.cores then 0xFF
  else if Config.fabricBase ≤ a ∧ a < Config.fabricBase + 0x2000 then BitVec.ofNat 8 ((a - Config.fabricBase) % 16)
  else if Config.healthBase ≤ a ∧ a < Config.healthBase + 0x2400 then
    BitVec.ofNat 8 (healthReset ((a - Config.healthBase) / 8) / 256 ^ (a % 8))
  else if Config.firmwareRoot 0 ≤ a ∧ a < Config.firmwareRoot 0 + 0x5100 then
    BitVec.ofNat 8 (bootTable ((a - Config.firmwareRoot 0) / 8) / 256 ^ (a % 8))
  else 0

/-- A byte nothing has written of a scratchpad or of host memory (log entry 2). -/
def zeroByte (_ : Nat) : Byte := 0

/-- The listed byte at an address of a rising list. -/
def cellAt : List Host.Cell → Nat → Option Byte
  | [], _ => none
  | (x, b) :: r, a => if x = a then some b else if a < x then none else cellAt r a

/-- Drop an address of a rising list. -/
def cellErase : List Host.Cell → Nat → List Host.Cell
  | [], _ => []
  | (x, b) :: r, a => if x = a then r else if a < x then (x, b) :: r else (x, b) :: cellErase r a

/-- List a byte at an address of a rising list. -/
def cellInsert : List Host.Cell → Nat → Byte → List Host.Cell
  | [], a, v => [(a, v)]
  | (x, b) :: r, a, v =>
    if x = a then (a, v) :: r else if a < x then (a, v) :: (x, b) :: r else (x, b) :: cellInsert r a v

/-- Addresses above `lo` in strictly rising order, none holding its unlisted value. -/
def cellsWf (d : Nat → Byte) : Option Nat → List Host.Cell → Bool
  | _, [] => true
  | lo, (x, b) :: r => (match lo with | none => true | some y => decide (y < x)) && b != d x && cellsWf d (some x) r

/-- Numbers in strictly rising order above `lo`. -/
def risingFrom : Option Nat → List Nat → Bool
  | _, [] => true
  | lo, x :: r => (match lo with | none => true | some y => decide (y < x)) && risingFrom (some x) r

/-- The canonical form of a memory whose unlisted bytes read as `d`. -/
def Mem.wf (d : Nat → Byte) (m : Mem) : Bool :=
  cellsWf d none m.cells && risingFrom none m.empty && risingFrom none m.poison

/-- One byte of a memory. -/
def Mem.byte (d : Nat → Byte) (m : Mem) (a : Nat) : Byte := (cellAt m.cells a).getD (d a)

/-- Write one byte, keeping the canonical form. -/
def Mem.setByte (d : Nat → Byte) (m : Mem) (a : Nat) (v : Byte) : Mem :=
  { m with cells := if v = d a then cellErase m.cells a else cellInsert m.cells a v }

/-- The full/empty bit of word `w` (R85): true when full. -/
def Mem.full (m : Mem) (w : Nat) : Bool := !m.empty.contains w

/-- Set the full/empty bit of a word. -/
def Mem.setFull (m : Mem) (w : Nat) (f : Bool) : Mem :=
  { m with empty := if f then listErase m.empty w else sortedInsert (listErase m.empty w) w }

/-- Mark a word poisoned or clean (R360). -/
def Mem.setPoison (m : Mem) (w : Nat) (p : Bool) : Mem :=
  { m with poison := if p then sortedInsert (listErase m.poison w) w else listErase m.poison w }

/-- Words of a frame at another one, or gone from there. -/
def moveWords (src dst : Nat) (ws : List Nat) : List Nat :=
  (ws.filter fun w => decide (src / 8 ≤ w ∧ w < src / 8 + 8192)).foldl (fun l w => sortedInsert (listErase l (w - src / 8 + dst / 8)) (w - src / 8 + dst / 8))
    (ws.filter fun w => !decide (dst / 8 ≤ w ∧ w < dst / 8 + 8192))

/-- A frame of device memory is copied to another one, with its full/empty bits and its poison (R369, R370). -/
def Mem.copyFrame (m : Mem) (src dst : Nat) : Mem :=
  let t := (List.range 65536).foldl (fun t i => t.setByte resetByte (dst + i) (m.byte resetByte (src + i))) m
  { t with empty := moveWords src dst m.empty, poison := moveWords src dst m.poison }

/-- The core of a CID. -/
def State.core (s : State) (cid : Nat) : Core := (s.cores.lookup cid).getD (Core.reset cid)

/-- Replace a core. -/
def State.setCore (s : State) (cid : Nat) (c : Core) : State := { s with cores := assocSet s.cores cid c }

/-- Change a core. -/
def State.onCore (s : State) (cid : Nat) (f : Core → Core) : State := s.setCore cid (f (s.core cid))

/-- The front end of an agent. -/
def State.hartOf (s : State) (a : Agent) : Hart :=
  if a = s.focus then s.hart else (s.harts.lookup a).getD (Hart.reset a)

/-- Replace the front end of an agent. -/
def State.setHart (s : State) (a : Agent) (h : Hart) : State :=
  if a = s.focus then { s with hart := h } else { s with harts := assocSet s.harts a h }

/-- Change the front end of an agent. -/
def State.onHart (s : State) (a : Agent) (f : Hart → Hart) : State := s.setHart a (f (s.hartOf a))

/-- Bring an agent's front end into view; the one in view goes back among the others. -/
def State.focusOn (s : State) (a : Agent) : State :=
  if a = s.focus then s
  else { s with focus := a, hart := s.hartOf a, harts := assocSet (assocErase s.harts a) s.focus s.hart }

/-- The launch processor of a quadrant. -/
def State.quad (s : State) (q : Nat) : Quad := if h : q < 4 then s.quads[q] else Quad.reset

/-- Change the launch processor of a quadrant. -/
def State.onQuad (s : State) (q : Nat) (f : Quad → Quad) : State :=
  if h : q < 4 then { s with quads := s.quads.set q (f s.quads[q]) } else s

/-- The frame of 64 KiB that stands for one of device memory: the end of its chain of replacements (R370). -/
def frameHome (remap : List (Nat × Nat)) : Nat → Nat → Nat
  | 0, f => f
  | n + 1, f => match remap.lookup f with
    | some g => frameHome remap n g
    | none => f

/-- Where the byte of a place is stored: every access to a retired frame goes to its replacement (R370; log
entry 113). -/
def State.storage (s : State) (l : Loc) : Loc :=
  match l with
  | .dev a => if s.molt.remap.isEmpty then l else .dev (frameHome s.molt.remap s.molt.remap.length (a / 65536 * 65536) + a % 65536)
  | _ => l

/-- One byte at a place. -/
def State.byteAt (s : State) (l : Loc) : Byte :=
  match s.storage l with
  | .dev a => s.mem.byte resetByte a
  | .host a => s.host.byte zeroByte a
  | .spad c o => (s.core c).spad.byte zeroByte o

/-- Change the memory that holds a place. -/
def State.onMem (s : State) (l : Loc) (f : (Nat → Byte) → Nat → Mem → Mem) : State :=
  match s.storage l with
  | .dev a => { s with mem := f resetByte a s.mem }
  | .host a => { s with host := f zeroByte a s.host }
  | .spad c o => s.onCore c fun k => { k with spad := f zeroByte o k.spad }

/-- The memory that holds a place, with the place's offset in it. -/
def State.memOf (s : State) (l : Loc) : Mem × Nat :=
  match s.storage l with
  | .dev a => (s.mem, a)
  | .host a => (s.host, a)
  | .spad c o => ((s.core c).spad, o)

/-- Write one byte at a place. -/
def State.putByte (s : State) (l : Loc) (v : Byte) : State := s.onMem l fun d a m => m.setByte d a v

/-- The full/empty bit of the word at a place (R85). -/
def State.fullAt (s : State) (l : Loc) : Bool := (s.memOf l).1.full ((s.memOf l).2 / 8)

/-- Set the full/empty bit of the word at a place. -/
def State.putFull (s : State) (l : Loc) (f : Bool) : State := s.onMem l fun _ a m => m.setFull (a / 8) f

/-- The physical address of a row of a pseudo-channel, on a 1 KiB boundary (R369; log entry 25). -/
def rowAddr (channel row : Nat) : Nat := Config.freeRow channel row % (Config.deviceEnd / 1024) * 1024

/-- A place lies in a row whose frame could not be replaced: every read of it returns poison (R370). -/
def State.degradedAt (s : State) (l : Loc) : Bool :=
  match s.storage l with
  | .dev a => s.molt.degraded.any fun r => a / 1024 * 1024 == rowAddr r.1 r.2
  | _ => false

/-- Whether the word at a place is poisoned (R360). -/
def State.poisonAt (s : State) (l : Loc) : Bool := (s.memOf l).1.poison.contains ((s.memOf l).2 / 8) || s.degradedAt l

/-- Mark the word at a place poisoned or clean. -/
def State.putPoison (s : State) (l : Loc) (p : Bool) : State := s.onMem l fun _ a m => m.setPoison (a / 8) p

/-- The place `n` bytes further. -/
def Loc.plus (l : Loc) (n : Nat) : Loc :=
  match l with
  | .dev a => .dev (a + n)
  | .host a => .host (a + n)
  | .spad c o => .spad c (o + n)

/-- The 8-byte word that holds a place. -/
def Loc.word (l : Loc) : Loc :=
  match l with
  | .dev a => .dev (a / 8 * 8)
  | .host a => .host (a / 8 * 8)
  | .spad c o => .spad c (o / 8 * 8)

/-- The little-endian number at a list of places. -/
def State.numAt (s : State) (ls : List Loc) : Nat := ofBytes (ls.map s.byteAt)

/-- `n` consecutive places. -/
def Loc.run (l : Loc) (n : Nat) : List Loc := (List.range n).map l.plus

/-- The `n`-byte number at a place. -/
def State.num (s : State) (l : Loc) (n : Nat) : Nat := s.numAt (l.run n)

/-- The 8-byte number at a device address. -/
def State.dev8 (s : State) (a : Nat) : Nat := s.num (.dev a) 8

/-- Put bytes at places with no other effect. -/
def State.putBytes (s : State) (ls : List (Loc × Byte)) : State := ls.foldl (fun t p => t.putByte p.1 p.2) s

/-- Put an `n`-byte number at a place with no other effect. -/
def State.putNum (s : State) (l : Loc) (n v : Nat) : State := s.putBytes ((l.run n).zip (bytesOf n v))

end Sys2Proof.Machine
end

