-- ==== Sys2Proof/Machine/Translate.lean ====
section
/-! DEFINITION. The address map and translation: regions, accessibility, page-table walks and the order of the causes
(R81 to R84, R90, R135, R165, R332 to R335). -/

namespace Sys2Proof.Machine

/-- Why an instruction does not go on: it takes a trap, or it waits and changes nothing. -/
inductive Stop where
  | trap (t : Trap)
  | wait
  deriving DecidableEq, Repr

/-- The partition of a core, by the core map; 0xFF for none (R341). -/
def State.partOf (s : State) (cid : Nat) : Nat :=
  if cid < Config.cores then (s.byteAt (.dev (Config.controlBase + 0x400 + cid))).toNat else 0xFF

/-- The gang of a GID on a core (R20). -/
def State.gangOn (s : State) (cid gid : Nat) : Option Gang :=
  s.gangs.find? fun g => g.gid == gid && g.part == s.partOf cid

/-- The loaded user and supervisor roots of a partition (R332, R344). -/
def State.rootsOf (s : State) (p : Nat) : Nat × Nat := if h : p < 16 then s.roots[p] else (0, 0)

/-- The firmware root of a quadrant, from the boot record (R332, R392). -/
def State.firmwareRoot (s : State) (q : Nat) : Nat := s.dev8 (0x30 + 8 * q)

/-- Who makes an access: the core whose windows apply, the gang that acts, the root, and whether the user check applies. -/
structure Viewer where
  cid : Option Nat
  gang : Option Gang
  root : Nat
  user : Bool
  deriving DecidableEq, Repr

/-- The viewer of a coroutine or of supervisor code on a core (R332). -/
def State.coreViewer (s : State) (cid : Nat) (gid : Option Nat) (user : Bool) : Viewer :=
  let r := s.rootsOf (s.partOf cid)
  { cid := some cid, gang := gid.bind (s.gangOn cid), root := if user then r.1 else r.2, user := user }

/-- The viewer of an agent at its present level (R291, R323, R332). -/
def State.viewer (s : State) (a : Agent) : Viewer :=
  let h := s.hartOf a
  match a with
  | .hart cid _ => s.coreViewer cid (h.occ.map (·.1)) (h.level == .user)
  | .fw q => { cid := none, gang := none, root := s.firmwareRoot q, user := false }

/-- The regions of R81; `gang g` only for a core of the gang. -/
inductive Region where
  | paged
  | self
  | gang (g : Nat)
  | remote (c : Nat)
  | hole
  deriving DecidableEq, Repr

/-- The region of an address for a gang of `n` cores (R81). -/
def regionOf (n : Nat) (va : Nat) : Region :=
  if va < 2 ^ 56 then .paged
  else if va < 0x0100000000100000 then .self
  else if 0x0110000000000000 ≤ va ∧ va < 0x0110000000000000 + n * 0x100000 then .gang ((va - 0x0110000000000000) / 0x100000)
  else if 0x0120000000000000 ≤ va ∧ va < 0x0120000000000000 + Config.cores * 0x100000 then
    .remote ((va - 0x0120000000000000) / 0x100000)
  else .hole

/-- The levels of a walk: number, lowest address bit and index width (R333). -/
def walkLevels : List (Nat × Nat × Nat) := [(4, 48, 8), (3, 39, 9), (2, 30, 9), (1, 21, 9), (0, 16, 5)]

/-- The page size in bits of a leaf at a level (R333). -/
def pageBits (level : Nat) : Nat := if level = 2 then 30 else if level = 1 then 21 else 16

/-- The page size code of a level (R98). -/
def pageCode (level : Nat) : Nat := level

/-- A leaf entry found by a walk: its level, address and value, and the lines of every entry read. -/
structure Leaf where
  level : Nat
  entry : Nat
  pte : Nat
  lines : List Nat
  deriving DecidableEq, Repr

/-- The physical address field of an entry (R334). -/
def pteAddr (e : Nat) : Nat := bits e 51 8 * 256

/-- Whether the boot record of the last module reset selects CXL for a host port (R387, R392). -/
def State.cxlPort (s : State) (port : Nat) : Bool := bits s.eft.portModes (2 * port + 1) (2 * port) == 1

/-- Whether the boot record selects CXL for a host port (R387, R392). -/
def State.tierServed (s : State) : Bool := s.cxlPort 0 || s.cxlPort 1

/-- Tier traffic proceeds: some host port that the boot record selects for CXL is up (R387). -/
def State.tierUp (s : State) : Bool := (s.cxlPort 0 && s.hostUp[0]) || (s.cxlPort 1 && s.hostUp[1])

/-- No trap: the access waits for a host port (R387). -/
def hostWait : Trap := { cause := .tierAccess, sub := 0xFFFF }

/-- A valid entry is well formed (R334). -/
def State.entryOk (s : State) (level e : Nat) : Bool :=
  let sz := bits e 57 56
  let a := pteAddr e
  bits e 55 52 == 0 && bits e 7 0 == 0
  && (if sz = 0 then
        level != 0 && bits e 62 58 == 0
        && (let size := if level = 1 then 256 else 4096; a % size == 0 && decide (a + size ≤ Config.deviceEnd))
      else
        (sz == 3 && level == 2 || sz == 2 && level == 1 || sz == 1 && level == 0)
        && a % 2 ^ pageBits level == 0
        && (if bit e 62 then s.tierServed else decide (a + 2 ^ pageBits level ≤ Config.deviceEnd)))

/-- The walk of R333 and R335 from a table down the given levels; a failure is its kind (1 INVALID, 2 FORMAT) and level. DESIGN CHOICE (log
entry 68): a poisoned entry is no well-formed one. -/
def State.walkFrom (s : State) (va : Nat) : List (Nat × Nat × Nat) → Nat → List Nat → Except (Nat × Nat) Leaf
  | [], _, _ => .error (2, 0)
  | (level, low, width) :: r, table, lines =>
    let ea := table + 8 * (va / 2 ^ low % 2 ^ width)
    let e := s.dev8 ea
    let ls := lines ++ [ea / 64]
    if s.poisonAt (.dev ea) then .error (2, level)
    else if !bit e 63 then .error (1, level)
    else if !s.entryOk level e then .error (2, level)
    else if bits e 57 56 = 0 then s.walkFrom va r (pteAddr e) ls
    else .ok { level := level, entry := ea, pte := e, lines := ls }

/-- A walk from a root (R333). -/
def State.walk (s : State) (root va : Nat) : Except (Nat × Nat) Leaf := s.walkFrom va walkLevels root []

/-- The lines of the entries a walk reads, a failing one included (R336, R337). -/
def State.walkPath (s : State) (va : Nat) : List (Nat × Nat × Nat) → Nat → List Nat
  | [], _ => []
  | (level, low, width) :: r, table =>
    let ea := table + 8 * (va / 2 ^ low % 2 ^ width)
    let e := s.dev8 ea
    if !s.poisonAt (.dev ea) && bit e 63 && s.entryOk level e && bits e 57 56 == 0 then ea / 64 :: s.walkPath va r (pteAddr e) else [ea / 64]

/-- XLATE_FAULT with its kind and level (R335). -/
def xlateTrap (va : Nat) (f : Nat × Nat) : Trap := { cause := .xlateFault, sub := f.1 + 16 * f.2, val := word va }

/-- A leaf that passes the user and write checks (R335 steps 1 and 2). -/
def State.leafFor (s : State) (root : Nat) (user write : Bool) (va : Nat) : Except Trap Leaf :=
  match s.walk root va with
  | .error f => .error (xlateTrap va f)
  | .ok l =>
    if user && !bit l.pte 58 then .error (xlateTrap va (3, l.level))
    else if write && !bit l.pte 59 then .error (xlateTrap va (4, l.level))
    else .ok l

/-- The place of an address on a leaf's page (R333, R387). -/
def Leaf.place (l : Leaf) (va : Nat) : Loc :=
  let a := pteAddr l.pte + va % 2 ^ pageBits l.level
  if bit l.pte 62 then .host a else .dev a

/-- The first address of a leaf's page. -/
def Leaf.page (l : Leaf) (va : Nat) : Nat := va / 2 ^ pageBits l.level * 2 ^ pageBits l.level

/-- Where the bytes of an access lie: their places, the lines of the entries used, and the tier pages touched (address and
size code). -/
structure Spot where
  locs : List Loc
  lines : List Nat
  tiers : List (Nat × Nat)
  deriving DecidableEq, Repr

/-- The pages of a paged access, lower page first (R84, R335). -/
def State.pagedSpot (s : State) (root : Nat) (user write : Bool) (va n : Nat) : Except Trap Spot := do
  let l ← s.leafFor root user write va
  let first := min n (2 ^ pageBits l.level - va % 2 ^ pageBits l.level)
  let a : Spot := { locs := (l.place va).run first, lines := l.lines,
                    tiers := if bit l.pte 62 then [(l.page va, pageCode l.level)] else [] }
  if first = n then pure a
  else
    let vb := va + first
    let l2 ← s.leafFor root user write vb
    pure { locs := a.locs ++ (l2.place vb).run (n - first), lines := a.lines ++ l2.lines,
           tiers := a.tiers ++ if bit l2.pte 62 then [(l2.page vb, pageCode l2.level)] else [] }

/-- A byte of a scratchpad lies in the core's inbox ring (R92). -/
def Core.inRing (c : Core) (o : Nat) : Bool := c.inboxUnits != 0 && decide (c.inboxOff * 64 ≤ o ∧ o < (c.inboxOff + c.inboxUnits) * 64)

/-- A byte of a scratchpad lies in the gang's allocation on that core (R82, R317). -/
def Gang.owns (g : Gang) (cid o : Nat) : Bool := g.cores.contains cid && decide (o < g.spad * 65536)

/-- Bytes of a scratchpad through a window of this device (R82). -/
def State.windowSpot (s : State) (g : Option Gang) (self write : Bool) (cid o n va : Nat) : Except Trap Spot :=
  let mine := fun k => match g with | some g => g.owns cid k | none => false
  let ring := fun k => self && (s.core cid).inRing k
  let os := (List.range n).map (o + ·)
  if os.any fun k => !(mine k || ring k) then .error { cause := .addrHole, val := word va }
  else if write && os.any fun k => !mine k then .error { cause := .addrProt, val := word va }
  else .ok { locs := os.map fun k => .spad cid k, lines := [], tiers := [] }

/-- The region of an address for a viewer (R81): the scratchpad windows are holes for a firmware core (R323). -/
def Viewer.region (v : Viewer) (va : Nat) : Region :=
  let r := regionOf (match v.gang with | some g => g.cores.length | none => 0) va
  match v.cid, r with
  | some _, r => r
  | none, .paged => .paged
  | none, _ => .hole

/-- Bytes of an access lie in two regions of different kind (R84). -/
def Viewer.straddles (v : Viewer) (va n : Nat) : Bool :=
  decide (n ≠ 0 ∧ v.region va ≠ v.region ((va + (n - 1)) % 2 ^ 64))

/-- The places of an access of `n` bytes, with the causes in the order of R165; TIER_ACCESS is left to the caller. -/
def State.locate (s : State) (v : Viewer) (va n align : Nat) (write : Bool) : Except Trap Spot :=
  if v.straddles va n then .error { cause := .windowStraddle, val := word va }
  else if va % align ≠ 0 then .error { cause := .misaligned, val := word va }
  else
    match v.region va, v.cid with
    | .paged, _ => s.pagedSpot v.root v.user write va n
    | .self, some cid => s.windowSpot v.gang true write cid (va % 0x100000) n va
    | .gang g, some _ =>
      match v.gang.bind fun k => k.cores[g]? with
      | some c => s.windowSpot v.gang false write c (va % 0x100000) n va
      | none => .error { cause := .addrHole, val := word va }
    | _, _ => .error { cause := .addrHole, val := word va }

/-- TIER_ACCESS for the first tier page of an access (R97). -/
def Spot.noTier (p : Spot) (va : Nat) : Except Trap Spot :=
  if p.tiers.isEmpty then .ok p else .error { cause := .tierAccess, val := word va }

/-- The places of an access to this device that a bound source makes (R82, R332, R379). -/
def State.locateBound (s : State) (part va n : Nat) (align : Nat) (write : Bool) : Except Trap Spot :=
  let r := regionOf 0 va
  if n ≠ 0 ∧ r ≠ regionOf 0 ((va + (n - 1)) % 2 ^ 64) then .error { cause := .windowStraddle, val := word va }
  else if va % align ≠ 0 then .error { cause := .misaligned, val := word va }
  else
    match r with
    | .paged => s.pagedSpot (s.rootsOf part).1 true write va n
    | .remote c =>
      let os := (List.range n).map (va % 0x100000 + ·)
      if os.all fun k => s.gangs.any fun g => g.part == part && g.owns c k then
        .ok { locs := os.map fun k => .spad c k, lines := [], tiers := [] }
      else .error { cause := .addrHole, val := word va }
    | _ => .error { cause := .addrHole, val := word va }

/-- The places of an access at an address that must lie in paged memory (R81, R95, R338): an address of 2^56 or more, which no
walk reaches, is a hole. -/
def State.pagedOnly (s : State) (root : Nat) (write : Bool) (va n : Nat) : Except Trap Spot :=
  if va + n > 2 ^ 56 then .error { cause := .addrHole, val := word va } else s.pagedSpot root false write va n

/-- A fetch of one word: `kind` is the execute kind the word needs, 1 for an S-word and 2 for an E-word (R135). A poisoned word raises POISON
(R354; log entry 68). -/
def State.fetchSpot (s : State) (v : Viewer) (kind va : Nat) : Except Trap Loc :=
  if va ≥ 2 ^ 56 then .error { cause := .addrProt, val := word va }
  else do
    let l ← s.leafFor v.root v.user false va
    if bits l.pte 61 60 = 0 then .error { cause := .addrProt, val := word va }
    else if bits l.pte 61 60 ≠ kind then .error { cause := .illegal }
    else if bit l.pte 62 then .error { cause := .tierAccess, val := word va }
    else if s.poisonAt (l.place va) then .error { cause := .poison, val := word (va / 8 * 8) }
    else pure (l.place va)

/-- The place of the sync word a granule names under a root (R90, R399): ADDR_HOLE where it names none. -/
def State.granSpot (s : State) (root : Nat) (user write : Bool) (gran : Nat) : Except Trap Loc :=
  if gran < Config.granSpad then do
    let p ← s.pagedSpot root user write (gran * 16) 16
    let q ← p.noTier (gran * 16)
    match q.locs with
    | l :: _ => pure l
    | [] => .error { cause := .addrHole, val := word (gran * 16) }
  else if gran < Config.granSpad + Config.cores * 65536 then
    .ok (.spad ((gran - Config.granSpad) / 65536) ((gran - Config.granSpad) % 65536 * 16))
  else .error { cause := .addrHole, val := word (gran * 16) }

end Sys2Proof.Machine
end

