-- ==== Sys2Proof/Machine/Ops.lean ====
section
/-! DEFINITION. The named operations on the agent in view and on shared state: registers, retirement, strips, taking a trap
and returning from it, firmware events, asynchronous traps, sync words and stores
(R38 to R40, R44, R72, R85 to R91, R159, R177, R292 to R302, R326, R342, R399). -/

namespace Sys2Proof.Machine

/-! ### Registers of the agent in view -/

/-- A scalar register; x0 reads 0 (R44). -/
def Ctx.get (c : Ctx) (r : Reg) : Word := if r = 0 then 0 else c.x[r]

/-- Write a scalar register; a write to x0 is discarded (R44). -/
def Ctx.put (c : Ctx) (r : Reg) (v : Word) : Ctx := if r = 0 then c else { c with x := c.x.set r v }

/-- Replace the registers of the agent in view. -/
def State.setCtx (s : State) (c : Ctx) : State := { s with hart := { s.hart with ctx := c } }

/-- A scalar register of the agent in view. -/
def State.x (s : State) (r : Reg) : Word := s.hart.ctx.get r

/-- Write a scalar register of the agent in view. -/
def State.setX (s : State) (r : Reg) (v : Word) : State := s.setCtx (s.hart.ctx.put r v)

/-- The PC of the agent in view. -/
def State.pc (s : State) : Word := s.hart.ctx.pc

/-- Set the PC. -/
def State.setPc (s : State) (a : Word) : State := s.setCtx { s.hart.ctx with pc := a }

/-- The next S-word (R134). -/
def State.stepPc (s : State) : State := s.setPc (s.pc + 4)

/-- One S-word retires; only user level counts in ICNT (R72). -/
def State.retire (s : State) : State :=
  if s.hart.level = .user then s.setCtx { s.hart.ctx with sCount := s.hart.ctx.sCount + 1 } else s

/-- The mark of a poisoned scalar register (R360); x0 has none. -/
def xMark (r : Reg) : RegWord := { kind := 4, num := r.val, word := 0 }

/-- A scalar register is marked poisoned. -/
def Ctx.xBad (c : Ctx) (r : Reg) : Bool := c.poison.contains (xMark r)

/-- The marks of VL and TL computed from a poisoned register, as register words of a kind of their own (R178, R180, R354; log entry 68). -/
def vlMark : RegWord := { kind := 7, num := 0, word := 0 }
def tlMark : RegWord := { kind := 7, num := 1, word := 0 }

/-- Mark a register word that was written, poisoned or clean (R354, R360). -/
def Ctx.markWord (c : Ctx) (w : RegWord) (bad : Bool) : Ctx :=
  { c with poison := c.poison.filter (· != w) ++ if bad then [w] else [] }

/-- Mark a scalar register that was written, poisoned or clean (R354, R360). -/
def Ctx.mark (c : Ctx) (d : Reg) (bad : Bool) : Ctx := if d = 0 then c else c.markWord (xMark d) bad

/-- POISON for VL or TL, computed from a poisoned register, that an S-word acts on (R354; log entry 68). -/
def State.lengthClean (s : State) (ws : List RegWord) : Except Trap Unit :=
  match ws.find? s.hart.ctx.poison.contains with
  | some w => .error { cause := .poison, val := word (0xFF * 2 ^ 56 + 7 * 2 ^ 48 + w.num) }
  | none => .ok ()

/-- POISON for a poisoned register that an S-word cannot act on and mark its result (R354, R360; log entry 68). -/
def State.regClean (s : State) (rs : List Reg) : Except Trap Unit :=
  match rs.find? s.hart.ctx.xBad with
  | some r => .error { cause := .poison, val := word (0xFF * 2 ^ 56 + 4 * 2 ^ 48 + r.val) }
  | none => .ok ()

/-- An S-word whose only effect is one register, written clean or poisoned (R159). -/
def State.resultMarked (s : State) (d : Reg) (v : Word) (bad : Bool) : State :=
  ((s.setCtx ((s.hart.ctx.put d v).mark d bad)).stepPc).retire

/-- An S-word whose only effect is one register (R159); the result is poisoned where one of the registers it is computed from is, so
that no wrong result goes unmarked (R354; log entry 68). -/
def State.result (s : State) (d : Reg) (v : Word) (srcs : List Reg := []) : State := s.resultMarked d v (srcs.any s.hart.ctx.xBad)

/-- The core of the agent in view; none for a firmware core (R323). -/
def State.cid? (s : State) : Option Nat :=
  match s.focus with
  | .hart cid _ => some cid
  | .fw _ => none

/-- The number under which the agent in view uses shared engines: its core's CID, or 2,048 + q for the firmware core of
quadrant q (log entry 22). -/
def State.cid (s : State) : Nat :=
  match s.focus with
  | .hart cid _ => cid
  | .fw q => 2048 + q

/-- The agent in view is a firmware core (R323). -/
def State.isFw (s : State) : Bool :=
  match s.focus with
  | .fw _ => true
  | .hart _ _ => false

/-- The viewer of the agent in view. -/
def State.view (s : State) : Viewer := s.viewer s.focus

/-- Change the front end in view. -/
def State.onFocus (s : State) (f : Hart → Hart) : State := { s with hart := f s.hart }

/-- A field of SSTATUS (R294). -/
def statusBit (w : Word) (i : Nat) : Bool := w.getLsbD i

/-- Set or clear one bit of a word. -/
def setBit (w : Word) (i : Nat) (b : Bool) : Word := if b then w ||| BitVec.twoPow 64 i else w &&& ~~~(BitVec.twoPow 64 i)

/-- INTRAP, SPP, IDLE, VLZ, NOSPEC, SBD and PP of SSTATUS (R294). -/
def inTrapBit : Nat := 63
def sppBit : Nat := 62
def idleBit : Nat := 61
def vlzBit : Nat := 60
def nospecBit : Nat := 59
def sbdBit : Nat := 58
def ppBit : Nat := 54

/-! ### Events and asynchronous traps -/

/-- An event that this state change makes happen later; its moment is the agenda's (log entry 3). -/
def State.later (s : State) (i : Instr) : State := { s with agenda := s.agenda ++ [.event i] }

/-- An event that cannot have its effect yet comes again after every front end has moved once and time has brought what it
brings (log entry 3). -/
def State.retry (s : State) (i : Instr) : State :=
  { s with agenda := s.agenda ++ (s.focus :: s.harts.map (·.1)).map .front ++ [.free, .event i] }

/-- Queue a firmware event; past 256 events it waits behind them (R326). -/
def State.postEvent (s : State) (q : Nat) (e : FwEvent) : State :=
  s.onQuad q fun k =>
    if k.events.length < Config.maxEvents then { k with events := k.events ++ [e] } else { k with waiting := k.waiting ++ [e] }

/-- A change of the state has posted an event into a full queue (R326). -/
def State.grew (s t : State) : Bool := (List.range 4).any fun q => decide ((s.quad q).waiting.length < (t.quad q).waiting.length)

/-- What a source of firmware events does: where one of its events finds the queue full, the source waits and does it again (R326). -/
def State.sourced (s : State) (i : Instr) (t : State) : State := if s.grew t then s.retry i else t

/-- Raise an asynchronous trap on a core; a full queue makes its source wait (R298). -/
def State.postAsync (s : State) (cid : Nat) (t : Trap) : State :=
  s.onCore cid fun c =>
    if c.asyncs.length < Config.maxAsyncTraps then { c with asyncs := c.asyncs ++ [t] }
    else { c with asyncsWaiting := c.asyncsWaiting ++ [t] }

/-- Raise an alert of the management interface. -/
def State.alert (s : State) (a : Alert) : State := { s with eft := { s.eft with alerts := s.eft.alerts ++ [a] } }

/-- The quadrant of a core (R9). -/
def quadOf (cid : Nat) : Nat := cid / Config.coresPerQuadrant

/-- The code of a cause (R297). -/
def causeCode : Cause → Nat
  | .illegal => 0x01 | .privInsn => 0x02 | .privCsr => 0x03 | .misaligned => 0x04 | .windowStraddle => 0x05
  | .addrHole => 0x06 | .addrProt => 0x07 | .xlateFault => 0x08 | .tierAccess => 0x09 | .syscall => 0x0A
  | .userTrap => 0x0B | .matoff => 0x0C | .matSource => 0x0D | .matRing => 0x0E | .sparseMeta => 0x0F
  | .deferred => 0x10 | .reduceState => 0x11 | .stepWindow => 0x12 | .staleHalo => 0x13 | .gridDesc => 0x14
  | .gridFull => 0x15 | .gridHandle => 0x16 | .gridBlock => 0x17 | .gridBusy => 0x18 | .syncUninit => 0x19
  | .syncOverflow => 0x1A | .copyParam => 0x1B | .copyAbort => 0x1C | .remoteAccess => 0x1D | .remoteLength => 0x1E
  | .spawnFull => 0x1F | .heapFree => 0x20 | .loopRange => 0x21 | .poison => 0x22 | .msgNohandler => 0x40
  | .inboxQuota => 0x41 | .tierNoframe => 0x42 | .ovfFault => 0x43 | .ctxShape => 0x44 | .ctxFormat => 0x45
  | .ctxSpace => 0x46

/-! ### Taking a trap and returning from it -/

/-- What the trap record says beside the cause: SCAUSE's flags, the block and word of an E-word fault, and SEPC (R295, R298). -/
structure TrapAt where
  isAsync : Bool := false
  strip : Bool := false
  blk : Bool := false
  widx : Nat := 0
  sblka : Word := 0
  sword : Word := 0
  sepc : Word := 0
  deriving DecidableEq, Repr

/-- SCAUSE (R295). -/
def scauseOf (t : Trap) (w : TrapAt) : Word :=
  word (flag w.isAsync * 2 ^ 63 + flag w.strip * 2 ^ 62 + flag w.blk * 2 ^ 61 + w.widx % 64 * 2 ^ 54 + t.sub % 2 ^ 16 * 2 ^ 16
    + causeCode t.cause)

/-- A trap at supervisor or firmware level with INTRAP = 1 stops the hart and is reported (R298). -/
def State.doubleFault (s : State) (t : Trap) : State :=
  let s := s.onFocus fun h => { h with run := .stopped }
  match s.focus with
  | .hart cid h => s.postEvent (quadOf cid) { code := 6, arg := cid * 8 + h, arg2 := causeCode t.cause }
  | .fw q => s.alert (.fwDoubleFault q (causeCode t.cause))

/-- The answers to token reads gathered for the agent in view are forgotten: its next wait reads its tokens afresh (R253). -/
def State.forget (s : State) : State :=
  { s with fabric := { s.fabric with awaits := s.fabric.awaits.filter (·.1 != s.focus) } }

/-- TRAP ENTRY (R298), shared by every trap: the level before goes to SPP, INTRAP is set, the trap registers are written
and execution goes on at STVEC. NOSPEC ends at an entry that finds no strip open (R301); PP shows a pre-emption that was asked
for before the entry (R294, R305). -/
def State.trapEntry (s : State) (t : Trap) (w : TrapAt) : State :=
  if s.hart.level ≠ .user ∧ statusBit s.hart.sstatus inTrapBit then s.doubleFault t
  else
    s.forget.onFocus fun h =>
      let st := setBit (setBit h.sstatus inTrapBit true) sppBit (h.level != .user)
      let st := setBit st idleBit (h.occ == none && !s.isFw)
      let st := if h.preemptReq then setBit st ppBit true else st
      { h with
        sstatus := if w.strip then st else setBit st nospecBit false
        level := if h.level = .firmware then .firmware else .supervisor
        run := .running
        issued := none
        tokens := none
        ahead := []
        pended := false
        scause := scauseOf t w, stval := t.val, stval2 := t.val2, sblka := w.sblka, sword := w.sword, sepc := w.sepc
        aside := h.ctx.strip :: h.aside
        ctx := { h.ctx with pc := h.stvec &&& 0x01FFFFFFFFFFFFFC, strip := none } }

/-- A poison mark of a register that a checkpoint holds: a mask, a scalar register, VL or TL (R38, R360). -/
def scalarMark (w : RegWord) : Bool := w.kind == 1 || w.kind == 4 || w.kind == 7

/-- Return an open strip to its checkpoint and discard its pending stores and blocks (R40, R73). Vector registers and tiles stay, and
so do the checks of their groups (R355); no flag of theirs comes back. -/
def Hart.restart (h : Hart) : Hart :=
  match h.ctx.strip with
  | none => h
  | some k =>
    { h with
      pend := [], blocks := [], committing := false
      unchecked := h.unchecked.map fun u =>
        { u with flags := 0, base := 63, group := u.group.filter fun w => !scalarMark w && w.kind != 5 }
      ctx := { h.ctx with
        pc := k.pc, x := k.x, k := k.k, vl := k.vl, tl := k.tl, lps := k.lps, fmask := k.fmask, vstart := k.vstart,
        fcsr := (h.ctx.fcsr &&& ~~~(0x3F : Word)) ||| k.flags, sCount := k.sCount, eCount := k.eCount,
        poison := h.ctx.poison.filter (fun w => !scalarMark w) ++ k.poison } }

/-- The checkpoint of R38 with the given PC. -/
def Ctx.checkpoint (c : Ctx) (pc : Word) : Checkpoint :=
  { pc := pc, x := c.x, k := c.k, vl := c.vl, tl := c.tl, lps := c.lps, fmask := c.fmask, vstart := c.vstart,
    flags := c.fcsr &&& 0x3F, sCount := c.sCount, eCount := c.eCount, poison := c.poison.filter scalarMark }

/-- A fault at the S-word in view: with a strip open it restarts, else the fault is at the S-word (R159, R298). With a strip open
SEPC is the checkpoint PC, and the record names the S-word's address in SBLKA, whose own meaning needs BLK = 1. DESIGN CHOICE (log
entry 65): R159 gives the record that address and no rule says where. -/
def State.swordTrap (s : State) (t : Trap) (bad : Word := 0) : State :=
  match s.hart.ctx.strip with
  | none => s.trapEntry t { sepc := s.pc, sword := bad }
  | some k => (s.onFocus Hart.restart).trapEntry t { strip := true, sepc := k.pc, sblka := s.pc, sword := bad }

/-- ERET's effect on VSTART and the suspended blocks (R299, R300). -/
def Hart.resume (h : Hart) : Hart :=
  if statusBit h.sstatus sbdBit then
    { h with suspended := [], ctx := if h.suspended.isEmpty then h.ctx else { h.ctx with vstart := 0 } }
  else
    { h with
      blocks := h.blocks ++ h.suspended.map fun b => { b with raise := none }, suspended := []
      ctx := match h.suspended with
        | b :: _ => { h.ctx with vstart := b.vstart }
        | [] => h.ctx }

/-- An asynchronous trap pends for the agent in view (R298). -/
def State.pending (s : State) : Bool :=
  match s.focus with
  | .hart cid h => (s.core cid).evhart == h && !(s.core cid).asyncs.isEmpty
  | .fw q => !(s.core (2048 + q)).asyncs.isEmpty

/-- A word that the hart in view fetched ahead of execution (R136). -/
def State.aheadWord (s : State) (kind va : Nat) : Option Nat := (s.hart.ahead.find? fun e => e.1 == kind && e.2.1 == va).map (·.2.2)

/-- The bits of a word of an execute kind, `n` bytes long, at an address (R135): those fetched ahead of execution where there are
any (R136). -/
def State.fetchBits (s : State) (v : Viewer) (kind va n : Nat) : Except Trap Nat :=
  match s.aheadWord kind va with
  | some w => .ok w
  | none => (s.fetchSpot v kind va).map fun l => s.num l n

/-- The element-block words at an address, up to VSTOP, a fetch fault or 64 words (R135, R141). -/
def State.blockWords (s : State) (v : Viewer) : Nat → Nat → List Word × Option Trap
  | 0, _ => ([], none)
  | n + 1, a =>
    match s.fetchBits v 2 a 8 with
    | .error t => ([], some t)
    | .ok w =>
      if w / 2 ^ 56 = 2 then ([word w], none)
      else
        let r := s.blockWords v n ((a + 8) % 2 ^ 64)
        (word w :: r.1, r.2)

/-- A suspended block whose fetch faulted is fetched on from there when it resumes (R135, R337). -/
def State.refetch (s : State) (b : Block) : Block :=
  if b.fault.isNone then b
  else
    let r := s.blockWords s.view (64 - b.words.length) ((b.addr.toNat + 8 * b.words.length) % 2 ^ 64)
    { b with words := b.words ++ r.1, fault := r.2 }

/-- What ERET brings back of a lazily set-aside context (R302): all of it but what the handler has as its own (x1–x31 with their
poison marks and the word counts). -/
def Hart.recall (h : Hart) : Hart :=
  if statusBit h.sstatus vlzBit then
    match h.lazy with
    | some c =>
      { h with
        lazy := none, sstatus := setBit h.sstatus vlzBit false
        ctx := { c with
          pc := h.ctx.pc, x := h.ctx.x, sCount := h.ctx.sCount
          poison := c.poison.filter (·.kind != 4) ++ h.ctx.poison.filter (·.kind == 4) } }
    | none => { h with sstatus := setBit h.sstatus vlzBit false }
  else h

/-- RETURN FROM A TRAP (R300): the lazy record and the suspended blocks come back when the trap came from user level, the
strip set aside at the entry is open again (log entry 6), and execution goes on at SEPC; an idle hart goes back to idle. No pre-emption
waits any more for the ERET that leaves supervisor level (R294, R305). DEDUCED (log entry 98): with SPP = 1 the return goes to the handler whatever IDLE says. -/
def State.trapReturn (s : State) : State :=
  let t := s.onFocus fun h =>
    let idle := statusBit h.sstatus idleBit
    let toUser := !statusBit h.sstatus sppBit && h.level != .firmware
    let h := if toUser then h.recall.resume else h
    { h with
      pended := s.pending
      ahead := []
      level := if toUser then .user else h.level
      run := if toUser && idle then .idle else .running
      sstatus := (fun st => if toUser then setBit st ppBit false else st) (setBit (setBit h.sstatus inTrapBit false) sbdBit false)
      pped := if toUser then 0 else h.pped
      aside := h.aside.drop 1
      ctx := { h.ctx with pc := h.sepc, strip := match h.aside.head? with | some k => k | none => h.ctx.strip } }
  if t.hart.level = .user then t.onFocus fun h => { h with blocks := h.blocks.map t.refetch } else t

/-! ### What a store may write -/

/-- The physical address of word n of partition p's entry (R341). -/
def pcaWord (p n : Nat) : Nat := Config.controlBase + 64 * p + 8 * n

/-- STATE of a partition (R341). -/
def State.partState (s : State) (p : Nat) : Nat := bits (s.dev8 (pcaWord p 7)) 59 56

/-- The harts of a core stand still: its partition is DRAINING (R345 step 3; log entry 114). -/
def State.halts (s : State) (cid : Nat) : Bool := decide (cid < Config.cores) && s.partState (s.partOf cid) == 2

/-- The physical address of word n of port i's entry (R378, R385). -/
def portWord (i n : Nat) : Nat := Config.fabricBase + 0x2800 + 32 * i + 8 * n

/-- The partition entry whose word 0 or word 7 holds a device address, with the word. -/
def pcaField (a : Nat) : Option (Nat × Nat) :=
  if Config.controlBase ≤ a ∧ a < Config.controlBase + 0x400 then
    some ((a - Config.controlBase) / 64, (a - Config.controlBase) % 64 / 8)
  else none

/-- The port entry that holds a device address, with the word. -/
def portField (a : Nat) : Option (Nat × Nat) :=
  if portWord 0 0 ≤ a ∧ a < portWord 16 0 then some ((a - portWord 0 0) / 32, (a - portWord 0 0) % 32 / 8) else none

/-- The bits of a byte of a partition entry that a store writes (R341): the read-only word 7, a word 0 whose command runs, and
the reserved fields keep their value. -/
def State.pcaWritable (s : State) (p n k : Nat) : Nat :=
  match n with
  | 0 => if bit (s.dev8 (pcaWord p 7)) 63 then 0 else if k < 2 then 255 else if k = 7 then 0xF0 else 0
  | 6 | 7 => 0
  | _ => 255

/-- The bits of a byte of the core map that a store writes (R341): the map byte of a core whose partition is ACTIVE, DRAINING or
FROZEN keeps its value (log entry 57). -/
def State.mapWritable (s : State) (cid : Nat) : Nat :=
  let p := s.partOf cid
  if p < 16 ∧ (s.partState p = 1 ∨ s.partState p = 2 ∨ s.partState p = 4) then 0 else 255

/-- The device place of QCTL's byte with SLOT, for a slotted queue of a quadrant (R309, R311). -/
def State.slotByte (s : State) (q qsb : Nat) : Option Loc :=
  match s.pagedSpot (s.firmwareRoot q) false false (qsb + 15) 1 with
  | .ok p => p.locs.head?
  | .error _ => none

/-- The byte of a queue state block that holds SLOT, at an address under a firmware root (R311). -/
def State.isSlotByte (s : State) (q qsb : Nat) (l : Loc) : Bool := s.slotByte q qsb == some l

/-- A byte lies in the field SLOT of a queue of a run list, from the QSB a link names (R311, R312). -/
def State.slotOnList (s : State) (q : Nat) (l : Loc) : Nat → Nat → Bool
  | 0, _ => false
  | n + 1, qsb =>
    qsb != 0 && (s.isSlotByte q qsb l ||
      match s.pagedSpot (s.firmwareRoot q) false false qsb 8 with
      | .ok p => s.slotOnList q l n (s.numAt p.locs)
      | .error _ => false)

/-- A byte holds the read-only field SLOT of a queue: a slotted one, or one that a run list links (R309, R311). DESIGN CHOICE (log entry
85): before a link names it, a block of memory is no QSB. -/
def State.holdsSlot (s : State) (l : Loc) : Bool :=
  (List.range 4).any fun q =>
    ((s.quad q).slots.any fun e => s.isSlotByte q e.qsb l) || (s.quad q).rlhead.toList.any fun h => s.slotOnList q l 4096 h.toNat

/-- A byte lies in the fault record of a DRAINED partition, whose fields are read-only (R347). DESIGN CHOICE (log entry 85): the area at
FREC is a record from the drain that writes it until its partition is reset. -/
def State.inFaultRecord (s : State) (l : Loc) : Bool :=
  (List.range 16).any fun p => (s.byteAt (.dev (pcaWord p 7 + 7))).toNat % 16 == 3 &&
    match s.pagedSpot (s.firmwareRoot 0) false false (s.dev8 (pcaWord p 5)) 64 with
    | .ok r => r.locs.contains l
    | .error _ => false

/-- The bits of a byte that any store writes, one of the device's own engines too: read-only and reserved fields of the structures the
device keeps in memory stay as they are (R4, R5): the partition control area (R341), port entries (R385; a store to a port's word 0 acts
by R384 instead), BIND entries (R379), the health table (R362) and fault records (R347). -/
def State.openBits (s : State) (l : Loc) : Nat :=
  match l with
  | .dev a =>
    match pcaField a with
    | some (p, n) => s.pcaWritable p n (a % 8)
    | none =>
      if (portField a).isSome then 0
      else if Config.controlBase + 0x400 ≤ a ∧ a < Config.controlBase + 0x400 + Config.cores then
        s.mapWritable (a - (Config.controlBase + 0x400))
      else if Config.fabricBase + 0x2000 ≤ a ∧ a < Config.fabricBase + 0x2800 then
        (if a % 8 < 5 then 0 else if a % 8 = 7 then 0xDF else 255)
      else if Config.healthBase ≤ a ∧ a < Config.healthBase + Config.healthBytes then 0
      else if s.inFaultRecord l then 0
      else 255
  | _ => 255

/-- The bits of a byte that an access of a program writes: SLOT of a queue stays too (R311). -/
def State.writable (s : State) (l : Loc) : Nat :=
  match l with
  | .dev a => if a % 256 = 15 ∧ s.openBits l = 255 ∧ s.holdsSlot l then 0xDF else s.openBits l
  | _ => 255

/-- A byte after a store of `b` that writes the bits of `m`. -/
def underMask (m : Nat) (old b : Byte) : Byte :=
  if m = 255 then b else BitVec.ofNat 8 ((old.toNat &&& (255 - m)) ||| (b.toNat &&& m))

/-- The byte a store leaves: the bits it may write come from the store, the others stay. -/
def State.maskedByte (s : State) (l : Loc) (b : Byte) : Byte := underMask (s.writable l) (s.byteAt l) b

/-- A store of the launch processor or of an engine of the device: read-only and reserved bits stay (R4, R5), and so do core-map bytes
(R7, R341), but a queue's SLOT is the launch processor's to write (R311). -/
def State.putOwn (s : State) (ws : List (Loc × Byte)) : State :=
  s.putBytes (ws.map fun w => (w.1, underMask (s.openBits w.1) (s.byteAt w.1) w.2))

/-- Write an `n`-byte number at a place as an access of a program or an engine does: read-only and reserved bits stay (R4, R5). -/
def State.putMasked (s : State) (l : Loc) (n v : Nat) : State :=
  s.putBytes (((l.run n).zip (bytesOf n v)).map fun w => (w.1, s.maskedByte w.1 w.2))

/-! ### Requests that leave (R374, R377, R384) -/

/-- STATE of a port (R385). -/
def State.portState (s : State) (i : Nat) : Nat := bits (s.dev8 (portWord i 1)) 63 62

/-- What a port keeps beside its entry. -/
def State.port (s : State) (i : Nat) : Port :=
  if h : i < 16 then s.fabric.ports[i] else Port.fresh

/-- A fabric port is in service by its health-table entry (R362, R366). -/
def State.portService (s : State) (i : Nat) : Bool := bits (s.dev8 (Config.healthBase + 0x4C800 + 8 * i)) 55 52 == 0

/-- A port takes new packets (R384): it is in RUN, and no withdrawal waits for those in flight. -/
def State.portOpen (s : State) (i : Nat) : Bool := s.portState i == 2 && !(s.port i).leaving

/-- Some port carries traffic (R384). -/
def State.linked (s : State) : Bool := (List.range 16).any fun i => s.portState i == 2

/-- The port of a new request: the lowest one in RUN with fewer than 4,096 requests outstanding (R374). DEDUCED (log entry 86): every port
reaches every endpoint of the pod, whose switches form a folded Clos (R378). -/
def State.wayOut (s : State) : Way :=
  match (List.range 16).filter s.portOpen with
  | [] => .lost
  | open_ => match open_.find? fun i => decide (s.fabric.sent.countP (·.way == .port i) < 4096) with
    | some i => .port i
    | none => .queued

/-- The virtual channel of a request (R374): messages travel on VC2. -/
def vcOf : ReqOp → Nat
  | .msg _ _ => 2
  | _ => 0

/-- A request goes its way: over its port, back to this device (R82), or to a NACK where no port is in RUN (R377). -/
def State.transmit (s : State) (r : OutReq) : State :=
  match r.way with
  | .loopback => s.later (.remoteRequest { vc := vcOf r.op, rid := r.rid, sep := r.ep, spart := r.part, scid := r.cid, seq := r.seq, op := r.op })
  | .port i => { s with fabric := { s.fabric with out := s.fabric.out ++ [.request i r.rid r.ep r.part r.cid r.seq r.op] } }
  | .queued => s
  | .lost => s.later (.remoteNack r.rid)

/-- Send a request of a source, number `cid`, for partition `part`, and remember what its answer does (R374, R377); one to the
device's own EID loops back (R82). -/
def State.sendAs (s : State) (cid part ep : Nat) (op : ReqOp) (cont : Cont) : State :=
  let seq := (s.fabric.txSeq.lookup (cid, ep)).getD 0
  let rid := s.fabric.nextRid
  let way := if ep = s.fabric.eid then .loopback else s.wayOut
  let r : OutReq := { rid := rid, way := way, ep := ep, cid := cid, part := part, seq := seq, op := op, cont := cont }
  let f := { s.fabric with sent := s.fabric.sent ++ [r], nextRid := rid + 1,
                           txSeq := assocSet s.fabric.txSeq (cid, ep) ((seq + 1) % 65536) }
  ({ s with fabric := f } : State).transmit r

/-- The unanswered requests that go one of some ways are sent again over another port, or receive a NACK where none is in RUN (R377). -/
def State.reroute (s : State) (p : Way → Bool) : State :=
  (s.fabric.sent.filter fun r => p r.way).foldl (fun t r =>
    let r' := { r with way := t.wayOut }
    ({ t with fabric := { t.fabric with sent := t.fabric.sent.map fun k => if k.rid == r.rid then r' else k } } : State).transmit r') s

/-! ### Sync words -/

/-- The granule a place of a sync word has as a token's GRAN when it lies in a scratchpad; a paged word keeps its own (R90). -/
def tokenEp (t : Word) : Nat := bits t.toNat 63 51
/-- GRAN of a token (R89). -/
def tokenGran (t : Word) : Nat := bits t.toNat 50 16
/-- GEN of a token (R89). -/
def tokenGen (t : Word) : Nat := bits t.toNat 15 0
/-- A token from its fields (R89). -/
def tokenOf (ep gran gen : Nat) : Word := word (ep % 2 ^ 13 * 2 ^ 51 + gran % 2 ^ 35 * 2 ^ 16 + gen % 2 ^ 16)

/-- A GRAN that names a word (R90). -/
def granNames (g : Nat) : Bool := decide (g < Config.granSpad + Config.cores * 65536)

/-- The address a GRAN names, for a trap value: a scratchpad word by its remote-window address (R81, R90, R297). -/
def granAddr (g : Nat) : Word :=
  if g < Config.granSpad then word (g * 16) else word (0x0120000000000000 + (g - Config.granSpad) * 16)

/-- The generation a word shows has signalled a token (R89). -/
def signalledBy (gen : Nat) (t : Word) : Bool :=
  let d := (gen + 65536 - tokenGen t) % 65536
  decide (1 ≤ d ∧ d ≤ 32767)

/-- V of the sync word at a place; a poisoned word reads as V = 0 (R87, R360). -/
def State.syncV (s : State) (l : Loc) : Bool := bit (s.num l 8) 63 && !s.poisonAt l
/-- GEN of the sync word at a place. -/
def State.syncGen (s : State) (l : Loc) : Nat := bits (s.num l 8) 55 40

/-- The slice that homes the lines of slice `n`: itself, or where it is out of service its stand-in, and so on (R366). -/
def sliceHome (standIns : List (Nat × Nat)) : Nat → Nat → Nat
  | 0, n => n
  | k + 1, n => match standIns.lookup n with
    | some m => sliceHome standIns k m
    | none => n

/-- The home atomic unit of a place: a core's scratchpad, or the L2 slice of a line (R16; log entry 56), or the slice that stands in for
one out of service (R366). -/
def State.homeUnit (s : State) (l : Loc) : Nat × Nat :=
  match l with
  | .spad c _ => (0, c)
  | .dev a =>
    (1, sliceHome s.molt.standIns s.molt.standIns.length (Config.freeSlice (a / 64) % Config.slices))
  | .host a => (2, a / 64)

/-- A registration at its home atomic unit, which holds 256: a full unit takes none, and the word is then read again (R91). -/
def State.addWaiter (s : State) (w : Waiter) : State :=
  if s.waiters.contains w then s
  else if s.waiters.countP (fun k => s.homeUnit k.loc == s.homeUnit w.loc) ≥ Config.maxWaiters then s
  else { s with waiters := s.waiters ++ [w] }

/-- Wake the waiters registered on a place: each registered core receives a notice and its registration ends (R91). DESIGN CHOICE (log
entry 86): a notice to another endpoint is a packet of the partition to which that endpoint is bound here. -/
def State.wake (s : State) (l : Loc) : State :=
  let mine := s.waiters.filter (·.loc == l)
  let s : State := { s with waiters := s.waiters.filter (·.loc != l) }
  mine.foldl (fun t w =>
    match w.who with
    | .core cid => t.later (.wakeNotice cid w.gran)
    | .launch q => t.later (.waitSignalled q w.gran)
    | .controller => t
    | .remote ep part => t.sendAs 2048 part ep (.wake w.gran) .wake) s

/-- A CONTRIBUTION of `n` bytes to the sync word at a place with V = 1 (R88); it is a write (R335), so read-only fields stay (R4). -/
def State.contributeAt (s : State) (l : Loc) (n : Nat) : State :=
  let w0 := s.num l 8
  let target := bits (s.num (l.plus 8) 8) 39 0
  let c := bits w0 39 0 + n
  let sat := bit w0 61 || decide (c > 2 ^ 40 - 1)
  let c := min c (2 ^ 40 - 1)
  let gen := bits w0 55 40
  let keep := bits w0 60 56 * 2 ^ 56 + 2 ^ 63 + flag sat * 2 ^ 61
  if c ≥ target then
    (s.putMasked l 8 (keep + (gen + 1) % 65536 * 2 ^ 40 + (c - target))).wake l
  else s.putMasked l 8 (keep + 2 ^ 62 + gen * 2 ^ 40 + c)

/-- The Skink gives a grid's ghost or publish word a generation (R128), whatever its TARGET and COUNT are, and wakes its waiters. -/
def State.advanceAt (s : State) (l : Loc) (gen : Nat) : State :=
  let w := s.num l 8
  (s.putMasked l 8 (w - bits w 55 40 * 2 ^ 40 + gen % 65536 * 2 ^ 40)).wake l

/-- The event a failed contribution of a launch processor or the partition controller raises (R88, R399). -/
def contributorQuad : Contributor → Option Nat
  | .launch q => some q
  | .controller => some 0
  | _ => none

/-- The root under which an agent's token is translated, and whether the user check applies (R90, R332). -/
def State.contributorRoot (s : State) (who : Contributor) (part : Nat) : Nat × Bool :=
  match who with
  | .controller => (s.firmwareRoot 0, false)
  | _ => ((s.rootsOf part).1, true)

/-- A byte of scratchpad under a read lease (R233). -/
def State.leased (s : State) (l : Loc) : Bool :=
  match l with
  | .spad c o => (s.hart :: s.harts.map (·.2)).any fun h => h.unchecked.any fun u => u.leases.contains (c, o)
  | _ => false

/-- A line of device memory whose entry some pending store, or some held full/empty operation, was translated through (R336). The
front end in view commits with its own queue emptied first, so that its stores do not hold one another back. -/
def State.pinned (s : State) (l : Loc) : Bool :=
  match l with
  | .dev a =>
    ((s.hart :: s.harts.map (·.2)).any fun h => h.pend.any fun e => e.lines.contains (a / 64))
    || s.feHeld.any fun f => f.lines.contains (a / 64)
  | _ => false

/-- Take a contribution into the held ones (R399). -/
def State.holdContribution (s : State) (h : HeldContribution) : State :=
  { s with heldContributions := s.heldContributions ++ [h] }

/-- SYNC_UNINIT of a contribution that finds V = 0: to the core that issued the work, or as an event (R88). -/
def State.reportUninit (s : State) (tok : Word) (who : Contributor) : State :=
  match who, contributorQuad who with
  | .core cid, _ => s.postAsync cid { cause := .syncUninit, val := tok }
  | _, some q => s.postEvent q { code := 0x0B, arg := tok.toNat, arg2 := 1 }
  | _, _ => s

/-- A fault of a contribution's word: to the core that issued the work, or as an event (R399); STVAL2 of a translation fault is
the transfer's ID, and that of TIER_ACCESS is 0 (R297). -/
def State.reportUnreachable (s : State) (h : HeldContribution) (t : Trap) : State :=
  match h.who, contributorQuad h.who with
  | .core cid, _ => s.postAsync cid { t with val2 := if t.cause = Cause.tierAccess then 0 else h.xfer }
  | _, some q => s.postEvent q { code := 0x0B, arg := h.tok.toNat, arg2 := if t.cause = Cause.tierAccess then 3 else 2 }
  | _, _ => s

/-- A contribution, or an advance of a grid's word, at its home unit (R88, R128); it waits for a lease (R233). -/
def State.makeContribution (s : State) (h : HeldContribution) : Except Stop State :=
  match s.granSpot h.root h.user true (tokenGran h.tok) with
  | .error t => .error (.trap t)
  | .ok l =>
    if (l.run 16).any fun x => s.leased x || s.pinned x then .error .wait
    else if s.syncV l then
      .ok (match h.gen with
        | none => s.contributeAt l h.n
        | some g => s.advanceAt l g)
    else .ok (s.reportUninit h.tok h.who)

/-- The number under which a contributor's packets are counted (R377): a launch processor's or the controller's is above every
CID. DESIGN CHOICE (log entry 30): the spec numbers cores only. -/
def sourceOf : Contributor → Nat
  | .core c => c
  | .launch q => 2048 + q
  | .controller | .remote _ _ => 2048

/-- Two contributions are of the same agent to the same word (R399): the agent, the GRAN and the root under which it is
translated agree. -/
def HeldContribution.sameAs (h k : HeldContribution) : Bool :=
  h.who == k.who && tokenGran h.tok == tokenGran k.tok && h.root == k.root && h.user == k.user

/-- A contribution of an agent of this device to a word of its own endpoint (R88, R399): an unreachable word holds it (a later one of
the same agent waits behind it), and a word with V = 0 discards it. DESIGN CHOICE (log entry 102): where the token's GRAN names no word
the contribution is held as at an unreachable word, for ever, and reported as ADDR_HOLE. -/
def State.offer (s : State) (h : HeldContribution) : State :=
  if s.heldContributions.any h.sameAs then s.holdContribution h
  else
    match s.makeContribution h with
    | .ok t => t
    | .error .wait => (s.holdContribution h).retry (.heldContributionRewalk 0)
    | .error (.trap t) => (s.holdContribution { h with reported := some t }).reportUnreachable h t

/-- A contribution of an agent of this device to the word a token names (R88, R255); a word at another endpoint receives it as a
request. -/
def State.contribute (s : State) (tok : Word) (n : Nat) (who : Contributor) (part root : Nat) (user : Bool) (xfer : Word) : State :=
  if tokenEp tok ≠ s.fabric.eid then s.sendAs (sourceOf who) part (tokenEp tok) (.contribute tok n) (.contribution who xfer n)
  else s.offer { tok := tok, n := n, who := who, root := root, user := user, xfer := xfer, gen := none, reported := none }

/-! ### The partition controller's commands and the ports -/

/-- Replace a field of an 8-byte device word. -/
def State.setField (s : State) (a hi lo v : Nat) : State :=
  let w := s.dev8 a
  s.putNum (.dev a) 8 (w - bits w hi lo * 2 ^ lo + v % 2 ^ (hi + 1 - lo) * 2 ^ lo)

/-- The end of a partition command (R342): ERR as given, DONE + 1, BUSY := 0, and CTOKEN's contribution. -/
def State.endCommand (s : State) (p : Nat) (err : Bool) : State :=
  let a := pcaWord p 7
  let done := bits (s.dev8 a) 31 0
  let s := ((s.setField a 62 62 (flag err)).setField a 31 0 (done + 1)).setField a 63 63 0
  let tok := word (s.dev8 (pcaWord p 4))
  if tok = 0 then s else s.contribute tok 1 .controller 0 (s.firmwareRoot 0) false 0

/-- The states in which a command is accepted (R344). -/
def commandAccepted (cmd st : Nat) : Bool :=
  (cmd == 1 && st == 0) || (cmd == 2 && st == 1) || (cmd == 3 && st == 3) || (cmd == 4 && (st == 3 || st == 4))

/-- A store to word 0 of a partition entry with CMD not 0 is taken as a command (R342, R343). -/
def State.takeCommand (s : State) (p : Nat) : State :=
  let cmd := bits (s.dev8 (pcaWord p 0)) 63 60
  if cmd = 0 then s
  else if commandAccepted cmd (s.partState p) then
    let s := (s.setField (pcaWord p 7) 63 63 1).setField (pcaWord p 7) 62 62 0
    let s : State := { s with commands := s.commands ++ [{ part := p, cmd := cmd, accepted := true, counts := [] }] }
    s.later (match cmd with | 1 => .activate p | 2 => .drain p | 3 => .resetPartition p | _ => .release p)
  else s.endCommand p true

/-- Put a port into a state (R384). -/
def State.setPortState (s : State) (i st : Nat) : State := s.setField (portWord i 1) 63 62 st

/-- Replace what a port keeps beside its entry. -/
def State.setPort (s : State) (i : Nat) (p : Port) : State :=
  if h : i < 16 then { s with fabric := { s.fabric with ports := s.fabric.ports.set i p } } else s

/-- A port enters ERROR with a code (R384); requests that wait for a port look for one again. -/
def State.portError (s : State) (i code : Nat) : State :=
  ((s.setPortState i 3).setField (portWord i 1) 61 56 code).reroute (· == .queued)

/-- A change of PORT.PEER (R384): stored while unlocked, ERROR with code 2 while locked or running, ignored in ERROR. -/
def State.portPeer (s : State) (i peer : Nat) : State :=
  match s.portState i with
  | 0 => s.setField (portWord i 0) 12 0 peer
  | 3 => s
  | _ => s.portError i 2

/-- The command LOCK (R384): configuration is frozen and SPDM starts with KEYEPOCH 0. DEDUCED (log entry 86): a port out of service takes
no LOCK and no START, since nothing moves back onto it before its lease ends (R366). -/
def State.portLock (s : State) (i : Nat) : State :=
  if s.portState i = 0 ∧ s.portService i then
    ((s.setPortState i 1).setField (portWord i 1) 31 0 0).setPort i Port.fresh
  else s

/-- The command START (R384): traffic starts once the session is established, and requests that wait for a port go on. -/
def State.portStart (s : State) (i : Nat) : State :=
  if s.portState i = 1 ∧ (s.port i).established ∧ s.portService i then (s.setPortState i 2).reroute (· == .queued) else s

/-- The command STOP (R384): keys are erased, and the port's unanswered packets are sent again over another port (R377). DESIGN CHOICE
(log entry 86): also from RUN, where the spec says nothing of them. -/
def State.portStop (s : State) (i : Nat) : State :=
  ((s.setPortState i 0).setPort i Port.fresh).reroute fun w => w == .port i || w == .queued

/-- A store to word 0 of a port entry: a change of PEER first, then the command (R385). -/
def State.portStore (s : State) (i old new : Nat) : State :=
  let s := if bits old 12 0 ≠ bits new 12 0 then s.portPeer i (bits new 12 0) else s
  match bits new 63 60 with
  | 1 => s.portLock i
  | 2 => s.portStart i
  | 3 => s.portStop i
  | _ => s

/-! ### Performing stores -/

/-- A store's effects beside its bytes: a partition command is taken, a port's word 0 acts (R342, R385). -/
def State.storeHooks (old s : State) (ws : List (Loc × Byte)) : State :=
  let parts := (ws.filterMap fun w => match w.1 with
    | .dev a => (match pcaField a with | some (p, 0) => some p | _ => none)
    | _ => none).dedup
  let s := parts.foldl (fun t p => if bit (old.dev8 (pcaWord p 7)) 63 then t else t.takeCommand p) s
  let ports := (ws.filterMap fun w => match w.1 with
    | .dev a => (match portField a with | some (i, 0) => some i | _ => none)
    | _ => none).dedup
  ports.foldl (fun t i =>
    let w := old.dev8 (portWord i 0)
    let new := ofBytes ((List.range 8).map fun k =>
      match ws.lookup (.dev (portWord i 0 + k)) with
      | some b => b
      | none => BitVec.ofNat 8 (w / 256 ^ k))
    t.portStore i w new) s

/-- The words of which a store writes all 8 bytes; their poison ends (R360). -/
def wholeWords (ws : List (Loc × Byte)) : List Loc :=
  ((ws.map fun w => w.1.word).dedup).filter fun l => (l.run 8).all fun k => ws.any (·.1 == k)

/-- A page leaves a core's notice table when its entry's T bit is clear (R99). -/
def State.purgeNotices (s : State) : State :=
  if s.cores.all fun c => c.2.notice.isEmpty then s
  else
    let keep := fun e : Nat × Nat => match s.walk e.2 e.1 with
      | .ok l => bit l.pte 62
      | .error _ => false
    { s with cores := s.cores.map fun c => (c.1, { c.2 with notice := c.2.notice.filter keep }) }

/-- A bad link of a run list may be reported again after a store to it or to the QCTL it names (R311). -/
def State.purgeReports (s : State) (ws : List (Loc × Byte)) : State :=
  if s.quads.all fun k => k.reported.isEmpty then s
  else
    let hit := fun a => ws.any fun w => match w.1 with
      | .dev b => b / 8 == a / 8
      | _ => false
    { s with quads := s.quads.map fun k => { k with reported := k.reported.filter fun r => !hit r.1 && !hit r.2.2 } }

/-- The root and the user check of a copy (R332). -/
def State.copyRoot (s : State) (c : Copy) : Nat × Bool :=
  match c.agent with
  | .fw q => (s.firmwareRoot q, false)
  | .hart _ _ => if c.sup then ((s.rootsOf (s.partOf c.cid)).2, false) else ((s.rootsOf (s.partOf c.cid)).1, true)

/-- The address of a core's message-vector entry of a type (R22, R293). -/
def Core.vectorAddr (c : Core) (type : Nat) : Nat := c.mvtbase.toNat % 2 ^ 57 / 4096 * 4096 + 16 * type

/-- The place of a core's message-vector entry of a type, under SROOT (R22, R293). -/
def State.vectorSpot (s : State) (cid type : Nat) : Except Trap Spot :=
  let va := (s.core cid).vectorAddr type
  if va ≥ 2 ^ 56 then .error { cause := .addrHole, val := word va }
  else do
    let p ← s.pagedSpot (s.rootsOf (s.partOf cid)).2 false false va 16
    p.noTier va

/-- A message held at a core's inbox head is looked at again after a store to its vector entry, or to an entry along the walk of
its address (R23; log entry 41). -/
def State.rehandle (s : State) (ws : List (Loc × Byte)) : State :=
  let lines := (ws.filterMap fun (w : Loc × Byte) => match w.1 with | .dev a => some (a / 64) | _ => none).dedup
  s.cores.foldl (fun t c =>
    match c.2.inbox.find? fun r => !r.pad && !r.made with
    | none => t
    | some r =>
      let walked := (s.walkPath (c.2.vectorAddr r.msg.type) walkLevels (s.rootsOf (s.partOf c.1)).2).any lines.contains
      let stored := match s.vectorSpot c.1 r.msg.type with
        | .ok p => ws.any fun w => p.locs.contains w.1
        | .error _ => false
      if walked || stored then t.later (.handlerCreate c.1) else t) s

/-- The address in a core's overflow ring where its next message begins (R95). -/
def Core.nextOvf (c : Core) : Nat := c.ovfbase.toNat % 2 ^ 57 / 64 * 64 + c.ovfW % max 1 c.ovfSize * 64

/-- Held copies, pushes, contributions and messages of the device walk again after a store to their walk, and page-ins without a frame look
again after a store to POOL or PROD (R95, R337, R338, R399). -/
def State.rewalk (s : State) (ws : List (Loc × Byte)) : State :=
  let lines := (ws.filterMap fun (w : Loc × Byte) => match w.1 with | .dev a => some (a / 64) | _ => none).dedup
  let on := fun (root va : Nat) => (s.walkPath va walkLevels root).any lines.contains
  let t := s.copies.foldl (fun (t : State) c => match c.held with
    | .walk k => if on (s.copyRoot c).1 k.val.toNat then t.later (.copyRewalk c.id.toNat) else t
    | _ => t) s
  let t := if s.pushes.any (fun p => match p.held with
      | .walk k => on (s.rootsOf p.part).1 k.val.toNat
      | _ => false) then t.later (.skinkWriteLand 0) else t
  let t := if s.heldContributions.any fun h => on h.root (tokenGran h.tok * 16) then t.later (.heldContributionRewalk 0) else t
  let t := s.cores.foldl (fun (t : State) c =>
    if !c.2.generated.isEmpty && on (s.rootsOf (s.partOf c.1)).2 c.2.nextOvf then t.later (.generatedMsgPlace c.1) else t) t
  s.pageins.foldl (fun (t : State) p =>
    let pool := s.dev8 (pcaWord p.part 3)
    let prod := match s.pagedSpot (s.rootsOf p.part).2 false false (pool + 32 * p.size + 16) 8 with
      | .ok q => q.locs.filterMap fun (l : Loc) => match l with | .dev a => some (a / 64) | _ => none
      | .error _ => []
    if p.frame.isNone && (lines.contains (pcaWord p.part 3 / 64) || prod.any lines.contains) then
      t.later (.pageInFrameRetry p.entry)
    else t) t

/-- PERFORM A STORE of bytes at places (R103, R233, R336, R360): it waits for a lease or a pinned entry line. -/
def State.perform (s : State) (ws : List (Loc × Byte)) : Except Stop State :=
  if ws.any fun w => s.leased w.1 || s.pinned w.1 then .error .wait
  else
    let t := s.putBytes (ws.map fun w => (w.1, s.maskedByte w.1 w.2))
    let t := (wholeWords ws).foldl (fun t l => if t.poisonAt l then t.putPoison l false else t) t
    .ok ((((s.storeHooks t ws).purgeReports ws).purgeNotices.rewalk ws).rehandle ws)

end Sys2Proof.Machine
end

