-- ==== Sys2Proof/Machine/Record.lean ====
section
/-! DEFINITION. Context records: their size, their bytes in a core's context region, what is read back from them, and their
check at a restore (R27, R29, R46, R58 to R62, R293, R302, R307, R332). -/

namespace Sys2Proof.Machine

/-! ### Sizes (R46, R58, R157) -/

/-- Vector registers N of a VCFG.VN (R53). -/
def regCount (vn : Nat) : Nat := 8 * 2 ^ vn

/-- Bytes of a register of an image or a context record: N and k from VN and KC (R46). -/
def imageVb (vn kc : Nat) : Nat := Config.vectorBytes / (regCount vn * 2 ^ kc)

/-- The number of set bits below N of a live mask. -/
def liveCount (live n : Nat) : Nat := ((List.range n).filter (bit live)).length

/-- The place of the live register r among the present registers: its rank. -/
def liveRank (live r : Nat) : Nat := ((List.range r).filter (bit live)).length

/-- The number at bytes [a, a + n) of an image held as one number. -/
def imageNum (x a n : Nat) : Nat := x / 256 ^ a % 256 ^ n

/-- Length in bytes of an image or record after its fixed area: `masks` mask images, the registers present, the tiles and
the latch (R58, R157). -/
def variableBytes (masks vn kc live : Nat) (ms : Bool) : Nat :=
  let vb := imageVb vn kc
  masks * (vb / 4) + liveCount live (regCount vn) * vb + (if ms then 5 * (16384 / 2 ^ kc) else 0)

/-- Bytes of a context record with the registers of `live` (R58). -/
def recordSize (vn kc live : Nat) (ms : Bool) : Nat := (1024 + variableBytes 9 vn kc live ms + 63) / 64 * 64

/-- Bytes of a coroutine's context record on a core (R58). -/
def Coro.recordBytes (k : Coro) (kc : Nat) : Nat := recordSize k.ctx.vn kc k.live (k.msave && k.ctx.m)

/-- Bytes of the lazy record of a hart: every vector register, and the tiles in matrix mode (R302). -/
def Ctx.lazyBytes (c : Ctx) (kc : Nat) : Nat := recordSize c.vn kc (2 ^ 64 - 1) c.m

/-! ### The bytes (R58 to R62) -/

/-- STATE of CTXHDR (R59). -/
def Coro.stateCode (k : Coro) : Nat :=
  if k.met then 0
  else match k.wait with
    | .ready => 0
    | .token .. => 1
    | .fe .. => 2
    | .allowance .. => 3
    | .inbox _ => 4

/-- CTXHDR (R59). -/
def Coro.header (k : Coro) : Nat :=
  2 ^ 56 + k.stateCode * 2 ^ 44 + flag k.pre * 2 ^ 43 + flag k.ctx.strip.isSome * 2 ^ 42 + flag k.ctx.m * 2 ^ 41
    + flag (k.msave && k.ctx.m) * 2 ^ 40 + k.base % 8 * 2 ^ 37 + k.kc % 4 * 2 ^ 32 + k.coid % 2 ^ 32

/-- WAITK and WAITA (R60). -/
def Coro.waitWords (k : Coro) : Nat × Nat :=
  if k.met then (0, 0)
  else match k.wait with
    | .ready => (0, 0)
    | .token toks inbox list _ _ _ _ =>
      (toks.length % 256 * 2 ^ 56 + flag inbox, match toks with | [t] => t.toNat | _ => list.toNat)
    | .fe stfe a => (2 * flag stfe, a.toNat)
    | .allowance _ _ group => (0, group % 16)
    | .inbox _ => (1, 0)

/-- The four words of a copy record (R62). -/
def CopyRec.words (r : CopyRec) : List Nat :=
  [2 ^ 63 + r.vd % 64 * 2 ^ 50 + r.vstart % 2 ^ 16 * 2 ^ 16 + r.count % 2 ^ 16, r.pblk.toNat, r.token.toNat, 0]

/-- The fields of a context record: offset, bytes and value (R58); `now` is the core's cycle count. -/
def Coro.fields (k : Coro) (now : Nat) : List (Nat × Nat × Nat) :=
  let c := k.ctx
  let n := regCount c.vn
  let vb := imageVb c.vn k.kc
  let m := vb / 4
  let live := k.live % 2 ^ n
  let tiles := 0x400 + 9 * m + liveCount live n * vb
  let tb := 16384 / 2 ^ k.kc
  let w := k.waitWords
  [(0, 8, k.header), (8, 8, c.pc.toNat)]
  ++ (List.range 31).map (fun i => (0x10 + 8 * i, 8, (c.x.toList.getD (i + 1) 0).toNat))
  ++ [(0x108, 8, c.vl), (0x110, 8, c.tl), (0x118, 8, flag c.m * 256 + c.vn), (0x120, 8, c.fcsr.toNat), (0x128, 8, c.vstart),
      (0x130, 8, c.lps.toNat), (0x138, 8, c.srseed.toNat), (0x140, 8, live)]
  ++ [(0x148, 8, c.sCount + c.eCount), (0x150, 8, if k.met && !k.pre then ((now : Int) - k.readyAt).toNat else k.rage),
      (0x158, 8, w.1), (0x160, 8, w.2), (0x168, 8, c.rstat.toNat), (0x170, 8, k.copyRecs.length), (0x178, 8, k.gid % 2 ^ 16)]
  ++ (List.range (32 / 2 ^ k.kc)).map (fun j => (0x180 + 8 * j, 8, (c.racc.toList.getD j 0).toNat))
  ++ (k.copyRecs.flatMap CopyRec.words).zipIdx.map (fun e => (0x280 + 8 * e.2, 8, e.1))
  ++ [(0x380, 8, c.cbyp), (0x388, 8, flag c.tiernote)]
  ++ (List.range 8).map (fun i => (0x400 + i * m, m, c.k.toList.getD i 0)) ++ [(0x400 + 8 * m, m, c.fmask)]
  ++ ((List.range n).filter (bit live)).map (fun i => (0x400 + 9 * m + liveRank live i * vb, vb, c.v.toList.getD i 0))
  ++ if k.msave && c.m then
      (List.range 4).map (fun i => (tiles + i * tb, tb, c.t.toList.getD i 0)) ++ [(tiles + 4 * tb, tb, c.bl)]
    else []

/-- The context record of a coroutine as one number, byte 0 lowest (R58). -/
def Coro.image (k : Coro) (now : Nat) : Nat :=
  ((k.fields now).map fun f => f.2.2 % 256 ^ f.2.1 * 256 ^ f.1).sum

/-- The offset of a 64-bit register word in a record or a JOB image, whose masks, `n` of them, begin at `base`; none for one that it does not
carry (R58, R157, R360). -/
def wordPlace (base n vn kc live : Nat) (tiles : Bool) (w : RegWord) : Option Nat :=
  let vb := imageVb vn kc
  let m := vb / 4
  let live := live % 2 ^ regCount vn
  let after := base + n * m + liveCount live (regCount vn) * vb
  let tb := 16384 / 2 ^ kc
  match w.kind with
  | 0 => if bit live w.num then some (base + n * m + liveRank live w.num * vb + 8 * w.word) else none
  | 1 => some (base + w.num * m + 8 * w.word)
  | 2 => if tiles then some (after + w.num * tb + 8 * w.word) else none
  | 3 => if tiles then some (after + 4 * tb + 8 * w.word) else none
  | 4 => if w.num = 0 then none else some (8 + 8 * w.num)
  | 7 => some (0x108 + 8 * w.num)
  | _ => none

/-- The register words of a shape that a record or an image can carry. -/
def shapeWords (vn kc : Nat) : List RegWord :=
  let vb := imageVb vn kc
  (List.range 8).flatMap (fun n => (List.range (vb / 32)).map fun w => ({ kind := 1, num := n, word := w } : RegWord))
    ++ ((List.range (regCount vn)).flatMap fun n => (List.range (vb / 8)).map fun w => { kind := 0, num := n, word := w })
    ++ ((List.range 5).flatMap fun n => (List.range (2048 / 2 ^ kc)).map fun w =>
      { kind := if n = 4 then 3 else 2, num := if n = 4 then 0 else n, word := w })
    ++ (List.range 32).map (fun n => { kind := 4, num := n, word := 0 }) ++ [vlMark, tlMark]

/-- The offset in a record of a 64-bit register word; none for one that the record does not carry (R58, R360). -/
def Coro.wordOffset (k : Coro) (w : RegWord) : Option Nat :=
  if w.kind = 6 then some (0x180 + 8 * w.num) else wordPlace 0x400 9 k.ctx.vn k.kc k.live (k.msave && k.ctx.m) w

/-- FCSR from a record: an illegal RM is not taken (R4, R54). -/
def recordFcsr (v : Nat) : Word := word (if bits v 14 12 ≥ 6 then v - bits v 14 12 * 2 ^ 12 else v)

/-- The registers that a record gives back (R27, R58, R59, R307): the counts of ICNT come back as one, and with STRIP set the
strip is open at its checkpoint. `live` and `kc` are those under which the record was written. -/
def recordCtx (x kc : Nat) : Ctx :=
  let f := fun a => imageNum x a 8
  let h := f 0
  let vn := f 0x118 % 4
  let live := f 0x140
  let vb := imageVb vn kc
  let m := vb / 4
  let tiles := 0x400 + 9 * m + liveCount live (regCount vn) * vb
  let tb := 16384 / 2 ^ kc
  let c : Ctx :=
    { Ctx.fresh vn with
      pc := word (f 8)
      x := Vector.ofFn fun i : Fin 32 => if i = 0 then 0 else word (f (8 + 8 * i.val))
      vl := f 0x108 % 65536, tl := f 0x110 % 128, m := bit h 41, fcsr := recordFcsr (f 0x120), vstart := f 0x128 % 65536
      lps := word (f 0x130), srseed := word (f 0x138), sCount := f 0x148, eCount := 0, rstat := word (f 0x168)
      cbyp := f 0x380 % 2 ^ 40, tiernote := bit (f 0x388) 0, fmask := imageNum x (0x400 + 8 * m) m
      racc := Vector.ofFn fun i : Fin 32 => word (f (0x180 + 8 * i.val))
      k := Vector.ofFn fun i : Fin 8 => imageNum x (0x400 + i.val * m) m
      v := Vector.ofFn fun i : Fin 64 =>
        if i.val < regCount vn ∧ bit live i.val then imageNum x (0x400 + 9 * m + liveRank live i.val * vb) vb else 0
      t := Vector.ofFn fun i : Fin 4 => if bit h 40 then imageNum x (tiles + i.val * tb) tb else 0
      bl := if bit h 40 then imageNum x (tiles + 4 * tb) tb else 0 }
  if bit h 42 then { c with strip := some (c.checkpoint c.pc) } else c

/-- The bits of some words that a record must hold as zero (R52 to R56, R61): the offset of each word with its reserved fields. -/
def recordZeros : List (Nat × List (Nat × Nat)) :=
  [(0x108, [(63, 16)]), (0x110, [(63, 7)]), (0x118, [(63, 9), (7, 2)]), (0x120, [(63, 15), (11, 10), (7, 6)]), (0x128, [(63, 16)]),
   (0x130, [(31, 6)]), (0x168, [(62, 56), (47, 16)]), (0x178, [(63, 16)]), (0x380, [(63, 40)]), (0x388, [(63, 1)])]

/-- WAITK and WAITA hold zero where R60 gives zero for a STATE. -/
def waitZeros (state waitk waita : Nat) : Bool :=
  match state with
  | 0 => waitk == 0 && waita == 0
  | 1 => bits waitk 55 1 == 0
  | 2 => bits waitk 63 2 == 0 && bits waitk 0 0 == 0
  | 3 => waitk == 0 && bits waita 63 4 == 0
  | 4 => bits waitk 63 1 == 0 && waita == 0
  | _ => true

/-- A record that its check refuses, with the cause (R59, R307): a wrong FMT or a field that has to be zero, the padding included, then
a KC other than that of the restoring hart. DESIGN CHOICE (log entry 101): MS = 1 with MM = 0 is refused as CTX_FORMAT too. -/
def recordRefusal (x kc : Nat) : Option Cause :=
  let f := fun a => imageNum x a 8
  let h := f 0
  let zero := bits h 55 48 == 0 && bits h 36 34 == 0 && (bit h 41 || !bit h 40)
    && recordZeros.all (fun w => w.2.all fun r => bits (f w.1) r.1 r.2 == 0) && waitZeros (bits h 47 44) (f 0x158) (f 0x160)
    && imageNum x 0x390 112 == 0
    && x / 256 ^ (1024 + variableBytes 9 (f 0x118 % 4) (bits h 33 32) (f 0x140) (bit h 40)) == 0
    && (List.range 32).all (fun j => j < 32 / 2 ^ (bits h 33 32) || f (0x180 + 8 * j) == 0)
    && (regCount (f 0x118 % 4) == 64 || f 0x140 / 2 ^ regCount (f 0x118 % 4) == 0)
    && (List.range 8).all (fun i => bits (f (0x280 + 32 * i)) 62 56 == 0 && bits (f (0x280 + 32 * i)) 49 32 == 0
      && f (0x298 + 32 * i) == 0)
  if bits h 63 56 ≠ 1 ∨ !zero then some .ctxFormat else if bits h 33 32 ≠ kc then some .ctxShape else none

/-! ### The context region (R29, R293, R332) -/

/-- The places of bytes of a core's context region, under SROOT (R293, R332): none where they cannot all be reached. -/
def State.regionSpots (s : State) (cid off n : Nat) (write : Bool) : Option (List Loc) :=
  let root := (s.rootsOf (s.partOf cid)).2
  let va := (s.core cid).ctxbase.toNat % 2 ^ 57 / 65536 * 65536 + off
  let parts := (List.range (n / 65536 + 2)).mapM fun i =>
    let a := if i = 0 then va else va / 65536 * 65536 + i * 65536
    let e := min (va + n) (va / 65536 * 65536 + (i + 1) * 65536)
    if e ≤ a then some []
    else match s.pagedOnly root write a (e - a) with
      | .ok p => if p.tiers.isEmpty then some p.locs else none
      | .error _ => none
  parts.map List.flatten

/-- The spilled records of a core's context region: offset and bytes. -/
def Core.spilled (c : Core) : List (Nat × Nat) :=
  (c.coros.filter fun k => !k.resident && !k.running).map fun k => (k.slot, k.recordBytes k.kc)

/-- The lowest place of the context region, of 64-byte alignment, where a record of `b` bytes fits beside the spilled ones (R29,
R58; log entry 37). -/
def Core.slotFor (c : Core) (b : Nat) : Option Nat :=
  let ends := 0 :: c.spilled.map fun e => e.1 + e.2
  let fits := fun a => decide (a + b ≤ c.ctxsize.toNat) && c.spilled.all fun e => decide (a + b ≤ e.1 ∨ e.1 + e.2 ≤ a)
  (ends.filter fits).foldl (fun m a => match m with
    | none => some a
    | some n => some (min n a)) none

/-- Write bytes at places that begin a 64-bit word; each word is left clean or poisoned, by its offset (R360). -/
def State.putWords (s : State) (ls : List Loc) (x : Nat) (bad : Nat → Bool) : State :=
  (List.range (ls.length / 8)).foldl (fun t i => match ls[8 * i]? with
    | some l => t.putPoison l (bad (8 * i))
    | none => t) (s.putOwn (ls.zip (bytesOf ls.length x)))

/-- Write a coroutine's record at a place of its core's context region, with its poison (R29, R58, R360). -/
def State.writeRecord (s : State) (cid : Nat) (k : Coro) (ls : List Loc) : State :=
  s.putWords ls (k.image (s.core cid).cycle) (k.ctx.poison.filterMap k.wordOffset).contains

/-- The record of a spilled coroutine takes its STATE and PRE, its time of readiness, its wait and its copy records (R58, R59, R60, R62, R306);
every other field stays as memory has it. -/
def State.patchRecord (s : State) (cid : Nat) (k : Coro) : State :=
  if k.resident || k.running then s
  else
    let put := fun (t : State) (f : Nat × Nat × Nat) => match t.regionSpots cid (k.slot + f.1) f.2.1 true with
      | some ls => t.putOwn (ls.zip (bytesOf f.2.1 f.2.2))
      | none => t
    let head := match s.regionSpots cid (k.slot + 5) 1 false with
      | some ls => s.numAt ls % 8 + flag k.pre * 8 + k.stateCode * 16
      | none => 0
    let own := (k.fields (s.core cid).cycle).filter fun f => [0x150, 0x158, 0x160, 0x170].contains f.1
    let rs := (List.range 32).map fun i => (0x280 + 8 * i, 8, (k.copyRecs.flatMap CopyRec.words).getD i 0)
    ((5, 1, head) :: own ++ rs).foldl put s

/-- The record of a spilled coroutine as one number; none where it cannot be read. -/
def State.readRecord (s : State) (cid : Nat) (k : Coro) : Option Nat :=
  (s.regionSpots cid k.slot (k.recordBytes k.kc) false).map s.numAt

/-- The register words of a spilled coroutine that its record shows poisoned (R360). -/
def State.recordPoison (s : State) (cid : Nat) (k : Coro) : List RegWord :=
  match s.regionSpots cid k.slot (k.recordBytes k.kc) false with
  | none => []
  | some ls =>
    (shapeWords k.ctx.vn k.kc ++ (List.range 32).map fun n => ({ kind := 6, num := n, word := 0 } : RegWord)).filter fun w => match (k.wordOffset w).bind fun o => ls[o]? with
      | some l => s.poisonAt l
      | none => false

/-- The check of a pre-empted or spilled coroutine's record (R59, R307): one in the context cache has its form, so that only KC
can differ; one in the context region that cannot be read is refused as CTX_FORMAT (log entry 37). -/
def State.recordCheck (s : State) (cid : Nat) (k : Coro) : Option Cause :=
  if k.resident then (if k.kc = (s.core cid).kc then none else some .ctxShape)
  else match s.readRecord cid k with
    | none => some .ctxFormat
    | some x => recordRefusal x (s.core cid).kc

/-- A spilled coroutine's context comes back into the context cache from its record (R29, R307). -/
def State.loadRecord (s : State) (cid : Nat) (k : Coro) : Coro :=
  match if k.resident then none else s.readRecord cid k with
  | none => k
  | some x => { k with resident := true, ctx := { recordCtx x k.kc with poison := s.recordPoison cid k } }

end Sys2Proof.Machine
end

