-- ==== Sys2Proof/Machine/Sched.lean ====
section
/-! DEFINITION. Shared operations of coroutines and of the fabric: units and requests, commits, strips, saves, the choice of
what runs, messages and inbox rings (R21 to R40, R92 to R96, R113, R219 to R225, R304 to R307, R374 to R380, R400). -/

namespace Sys2Proof.Machine

/-! ### Allowance units and requests -/

/-- Units held for an endpoint (R34). -/
def Fabric.unitsFor (f : Fabric) (ep : Nat) : Nat := (f.units.lookup ep).getD 0

/-- Set the units held for an endpoint. -/
def Fabric.setUnits (f : Fabric) (ep n : Nat) : Fabric := { f with units := assocSet f.units ep n }

/-- The destination group of an endpoint (R34, R378). -/
def State.groupOf (s : State) (ep : Nat) : Nat := (s.byteAt (.dev (Config.fabricBase + ep % 8192))).toNat % 16

/-- SAg: the units of the endpoints of group g, saturated at 65,535 (R34, R52). -/
def State.groupUnits (s : State) (g : Nat) : Nat :=
  min 65535 ((s.fabric.units.filter fun p => s.groupOf p.1 == g).map (·.2)).sum

/-- An endpoint holds this device's allowance at zero (R37, R96); for the device's own EID that is a breach at one of its cores. -/
def Fabric.heldSelf (f : Fabric) (ep : Nat) : Bool := if ep = f.eid then f.heldAt.contains ep else f.heldFor.contains ep

/-- The allowance for an endpoint falls to zero (R37): the units held go, with those gathered for requests that still wait. -/
def Fabric.holdUnits (f : Fabric) (ep : Nat) : Fabric :=
  { f.setUnits ep 0 with waits := f.waits.map fun w => if w.ep = ep ∧ w.got < w.u then { w with got := 0 } else w }

/-- Draw `u` units for endpoint `ep` (R35): those held for the requester in the waiting order, whose surplus is free again, else free
ones that no earlier request waits for. -/
def State.draw (s : State) (who : UnitOwner) (ep u : Nat) : Option State :=
  match s.fabric.waits.find? fun w => w.who == who && w.ep == ep with
  | some w =>
    if w.got < u then none
    else
      some { s with fabric := { s.fabric with waits := s.fabric.waits.erase w }.setUnits ep (s.fabric.unitsFor ep + (w.got - u)) }
  | none =>
    if u ≤ s.fabric.unitsFor ep ∧ !s.fabric.heldSelf ep ∧ (s.fabric.waits.all fun w => w.ep != ep || decide (w.u ≤ w.got)) then
      some { s with fabric := s.fabric.setUnits ep (s.fabric.unitsFor ep - u) }
    else none

/-- Take a place in the order of requests that wait for endpoint `ep` (R35); a requester waits once, for the units it asks for
last. -/
def State.queueFor (s : State) (who : UnitOwner) (ep u : Nat) : State :=
  let mine := fun w : UnitWait => w.who == who && w.ep == ep
  if s.fabric.waits.any mine then
    { s with fabric := { s.fabric with waits := s.fabric.waits.map fun w => if mine w then { w with u := u } else w } }
  else { s with fabric := { s.fabric with waits := s.fabric.waits ++ [{ ep := ep, u := u, got := 0, who := who }] } }

/-- The agent in view is a coroutine at user level, which can be set aside (R26, R35). -/
def State.canSwitch (s : State) : Bool := s.hart.level == .user && s.hart.occ.isSome

/-- The owner of the remote stores and requests of the agent in view; GID 65,536 with the hart's number names an agent without a
coroutine. -/
def State.own (s : State) : Nat × Nat :=
  s.hart.occ.getD (65536, match s.focus with | .hart _ h => h | .fw _ => 0)

/-- A request of a core, for the partition it belongs to. -/
def State.send (s : State) (cid ep : Nat) (op : ReqOp) (cont : Cont) : State := s.sendAs cid (s.partOf cid) ep op cont

/-- A register copy lands in the registers of its coroutine, also one that supervisor code issued with those not set aside (R250, R291,
R302; log entry 69). -/
def Copy.forCoro (c : Copy) : Bool := !c.sup || (decide (c.gid < 65536) && !c.vlz)

/-- Copies into vector registers of the agent in view that have not landed (R28, R47, R62, R250). -/
def State.regCopies (s : State) : List Copy :=
  s.copies.filter fun c => c.p.dk == 3 &&
    (if !c.forCoro then c.agent == s.focus
     else match s.focus, s.hart.occ with
      | .hart cid _, some (g, n) => c.cid == cid && c.gid == g && c.coid == n
      | _, _ => false)

/-! ### Contexts and residency (R29, R58) -/

/-- Contexts in the context cache: those of coroutines that do not run and are not spilled (R29). -/
def Core.cached (c : Core) : List Coro := c.coros.filter fun k => k.resident && !k.running && !k.away

/-- Bytes of the lazy records that lie in the slots of a core's running coroutines (R302). -/
def State.lazies (s : State) (cid : Nat) : List Nat :=
  (List.range 8).filterMap fun h => ((s.hartOf (.hart cid h)).lazy).map fun c => c.lazyBytes (s.core cid).kc

/-- The context cache of a core holds more than it may: 48 contexts or 384 KiB, the lazy records among them (R29, R302). -/
def State.overFull (s : State) (cid : Nat) : Bool :=
  let c := s.core cid
  let l := s.lazies cid
  decide (c.cached.length + l.length > Config.residentSlots)
  || decide ((c.cached.map (·.recordBytes c.kc)).sum + l.sum > Config.cacheBytes)

/-- The context a full cache spills (R29): the coroutine that has awaited longest, else the ready one with the latest ready
time. DESIGN CHOICE (log entry 58): the context being written counts among them, and of several with one time it is the first in the
order in which the core took its coroutines, since the spec says neither. -/
def Core.victim (c : Core) : Option Coro :=
  let least := fun l : List Coro => l.foldl (fun b k => match b with
    | none => some k
    | some j => if k.readyAt < j.readyAt then some k else some j) none
  let most := fun l : List Coro => l.foldl (fun b k => match b with
    | none => some k
    | some j => if j.readyAt < k.readyAt then some k else some j) none
  match least (c.cached.filter fun k => !k.met && !k.pre) with
  | some k => some k
  | none => most (c.cached.filter fun k => k.met && !k.pre)

/-! ### Coroutines -/

/-- The record of a coroutine on a core. -/
def Core.coro (c : Core) (gid coid : Nat) : Option Coro := c.coros.find? fun k => k.gid == gid && k.coid == coid

/-- Change a coroutine of a core. -/
def Core.onCoro (c : Core) (gid coid : Nat) (f : Coro → Coro) : Core :=
  { c with coros := c.coros.map fun k => if k.gid == gid && k.coid == coid then f k else k }

/-- Change a coroutine of the device. -/
def State.onCoro (s : State) (cid gid coid : Nat) (f : Coro → Coro) : State := s.onCore cid fun c => c.onCoro gid coid f

/-- Change the saved registers of a coroutine that does not run: in the context cache, or in its record in the context region
(R29). -/
def State.onSaved (s : State) (cid gid coid : Nat) (f : Ctx → Ctx) : State :=
  match (s.core cid).coro gid coid with
  | none => s
  | some k =>
    let c := f (if k.resident then k.ctx else (s.loadRecord cid k).ctx)
    let t := s.onCoro cid gid coid fun k => { k with ctx := c }
    if k.resident then t
    else match s.regionSpots cid k.slot (k.recordBytes k.kc) true with
      | some ls => t.writeRecord cid { k with ctx := c } ls
      | none => t

/-- Change a gang. -/
def State.onGang (s : State) (part gid : Nat) (f : Gang → Gang) : State :=
  { s with gangs := s.gangs.map fun g => if g.gid == gid && g.part == part then f g else g }

/-- Harts of a core, k (R12, R52). -/
def Core.harts (c : Core) : Nat := 2 ^ c.kc

/-- The home hart of a new coroutine: fewest coroutines, lowest number (R25). -/
def Core.home (c : Core) : Nat :=
  let load := fun h => c.coros.countP fun k => k.home == h
  (List.range c.harts).foldl (fun b h => if load h < load b then h else b) 0

/-- The inbox record a handler occupies, released when its coroutine first leaves state running (R23, R94). -/
def advanceInbox : List InboxRec → List InboxRec
  | [] => []
  | r :: rs => if r.released || r.pad then advanceInbox rs else r :: rs

/-- Free units of the inbox ring (R57, R94). -/
def Core.free (c : Core) : Nat := c.inboxUnits - (c.inbox.map (·.units)).sum

/-- Release the record at a unit (R23, R94). -/
def Core.release (c : Core) (unit : Nat) : Core :=
  { c with inbox := advanceInbox (c.inbox.map fun r => if r.unit == unit && !r.pad then { r with released := true } else r) }

/-- Registers absent from a save read as zero afterwards (R27): vector registers outside the live mask, and tiles and latch
unless they are saved. -/
def Ctx.trim (c : Ctx) (live : Nat) (tiles : Bool) : Ctx :=
  { c with
    v := Vector.ofFn fun i : Fin 64 => if bit live i then c.v[i] else 0
    t := if tiles then c.t else Vector.replicate 4 0
    bl := if tiles then c.bl else 0
    poison := c.poison.filter fun p => (p.kind != 0 || bit live p.num) && ((p.kind != 2 && p.kind != 3) || tiles) }

/-- A hart with no coroutine: no pre-emption waits for it, and no lazy record is there (R294, R302). -/
def Hart.vacate (h : Hart) : Hart :=
  { h with ctx := Ctx.fresh 0, level := .user, run := .idle, occ := none, pend := [], blocks := [], suspended := [], committing := false,
           sstatus := setBit (setBit h.sstatus ppBit false) vlzBit false, pped := 0,
           aside := [], lazy := none, switchReq := false, preemptReq := false, pended := false, ran := 0, unchecked := [], issued := none, tokens := none, ahead := [] }

/-- One spill of a core (R29, R58, R307): the record of the context chosen is written into the context region under SROOT. None where
no context may be spilled, or where the region has no room for it or cannot be written. -/
def State.spillOne (s : State) (cid : Nat) : Except Nat State :=
  let c := s.core cid
  match c.victim with
  | none => .error 0
  | some k =>
    let b := k.recordBytes c.kc
    match (c.slotFor b).bind fun a => (s.regionSpots cid a b true).map fun ls => (a, ls) with
    | none => .error b
    | some (a, ls) =>
      let t := s.writeRecord cid { k with kc := c.kc } ls
      let t := t.onCoro cid k.gid k.coid fun k => { k with resident := false, slot := a, kc := c.kc }
      .ok (if k.met then t.later (.contextFetch cid k.gid k.coid) else t)

/-- SPILLS of a core until its context cache is within its limits; a context region without room raises CTX_SPACE once, and the
spill waits until CTXSIZE grows or space frees (R29, R307). -/
def State.spill (s : State) (cid : Nat) : Nat → State
  | 0 => s
  | n + 1 =>
    if !s.overFull cid then s.onCore cid fun c => { c with spillWaits := false, stuck := [] }
    else
      match s.spillOne cid with
      | .ok t => t.spill cid n
      | .error b =>
        if (s.core cid).spillWaits || b == 0 then s
        else (s.onCore cid fun c => { c with spillWaits := true }).postAsync cid { cause := .ctxSpace, val := word b }

/-- A new context of `b` bytes waits for room in the context region of a core: CTX_SPACE is raised once (R29, R307). -/
def State.noRoom (s : State) (cid b : Nat) : State :=
  if (s.core cid).roomWaits then s
  else (s.onCore cid fun c => { c with roomWaits := true }).postAsync cid { cause := .ctxSpace, val := word b }

/-- The thawed records that wait for room enter the context cache in their order, which spills where it is full; where one finds no room,
CTX_SPACE is raised once (R29, R307, R330). DESIGN CHOICE (log entry 99): until then such a coroutine stands in no slot and is not chosen. -/
def State.takeBack (s : State) (cid : Nat) : Nat → State
  | 0 => s
  | n + 1 =>
    match (s.core cid).coros.find? (·.away) with
    | none => s
    | some k =>
      let t := (s.onCoro cid k.gid k.coid fun k => { k with away := false }).spill cid (Config.maxCoroutines + 1)
      if t.overFull cid then s.noRoom cid (k.recordBytes (s.core cid).kc)
      else (t.onCore cid fun c => { c with roomWaits := false }).takeBack cid n

/-- A spill of a core that waits is tried again (R307). -/
def State.respill (s : State) (cid : Nat) : State :=
  if (s.core cid).spillWaits || s.overFull cid then s.spill cid (Config.maxCoroutines + 1) else s

/-- Room for a spilled ready coroutine, or for a thawed one: fetches start in the order of ready time (R29). -/
def State.fetchNext (s : State) (cid : Nat) : State :=
  let wait := (s.core cid).coros.filter fun k => (!k.resident || k.away) && !k.running && k.met
  match (wait.foldl (fun (b : Option Coro) k => match b with
    | none => some k
    | some j => if k.readyAt < j.readyAt then some k else some j) none).or ((s.core cid).coros.find? (·.away)) with
  | some k => s.later (.contextFetch cid k.gid k.coid)
  | none => s

/-- The inbox, the overflow ring and the held device messages of a core go on after space was released (R23, R95). -/
def State.kickInbox (s : State) (cid : Nat) : State :=
  let c := s.core cid
  let s := if c.ovf.isEmpty then s else s.later (.overflowMove cid)
  let s := if c.generated.isEmpty then s else s.later (.generatedMsgPlace cid)
  if c.inbox.any fun r => !r.pad && !r.made then s.later (.handlerCreate cid) else s

/-- THE SAVE of the running coroutine in view (R26, R27, R32): it waits for `w`, its record holds the registers of the live
mask, its handler record is released, and its hart is free. A pre-emption that CTXOP asked of it while it ran takes it where it
waits (R33, R304). A hart whose context finds no room keeps it until a spill has made room (R29, R307). -/
def State.save (s : State) (w : WaitFor) (met : Bool) (live : Nat) (tiles : Bool) : State :=
  match s.focus, s.hart.occ with
  | .hart cid h, some (gid, coid) =>
    let now := (s.core cid).cycle
    let rec_ := ((s.core cid).coro gid coid).bind (·.inboxRec)
    let asked := s.hart.preemptReq && (s.core cid).ctxBusy && (s.core cid).ctxGid == gid && (s.core cid).ctxCoid == coid
    let s := s.onCoro cid gid coid fun k =>
      { k with running := false, wait := w, met := met, readyAt := now, promo := 0, rage := 0, live := live, msave := tiles,
               ctx := s.hart.ctx.trim live tiles, resident := true, inboxRec := none, kc := (s.core cid).kc,
               inboxMark := s.hart.issued.getD (s.core cid).inboxSeen }
    let s := match rec_ with
      | some u => (s.onCore u.1 fun c => c.release u.2).kickInbox u.1
      | none => s
    let s := (s.forget.onFocus Hart.vacate).spill cid (Config.maxCoroutines + 1)
    let s := if s.overFull cid then s.onCore cid fun c => { c with stuck := c.stuck ++ [h] } else s
    if asked then s.later (.preempt cid gid coid) else s
  | _, _ => s

/-- The live mask of a full save: every register of the configuration (R32, R46). -/
def fullMask : Nat := 2 ^ 64 - 1

/-- A full save (R32). -/
def State.saveFull (s : State) (w : WaitFor) (met : Bool) : State := s.save w met fullMask s.hart.ctx.m

/-- The present class of a ready coroutine (R31). -/
def Coro.cls (k : Coro) : Nat := min 7 (k.base + k.promo)

/-- A coroutine that a free hart may choose (R30). -/
def Coro.choosable (k : Coro) (h : Nat) : Bool := k.home == h && !k.running && k.met && !k.pre && k.resident && !k.away

/-- Whether a coroutine comes before another in the choice of R30. -/
def Coro.before (a b : Coro) : Bool :=
  if a.cls ≠ b.cls then decide (b.cls < a.cls)
  else if a.readyAt ≠ b.readyAt then decide (a.readyAt < b.readyAt)
  else if a.coid ≠ b.coid then decide (a.coid < b.coid)
  else decide (a.gid < b.gid)

/-- A ready coroutine at a time: promoted by each whole 4,096 cycles of readiness (R31). -/
def Coro.aged (now : Nat) (k : Coro) : Coro :=
  if k.met && !k.running && !k.pre then { k with promo := ((now - k.readyAt) / 4096).toNat } else k

/-- The coroutine a free hart runs next (R30). -/
def Core.choose (c : Core) (h : Nat) : Option Coro :=
  ((c.coros.map (·.aged c.cycle)).filter (·.choosable h)).foldl (fun b k => match b with
    | none => some k
    | some j => if k.before j then some k else some j) none

/-- What the wait of a coroutine came to: the index that its instruction returns, if its condition holds (R89, R253, R254). -/
def State.waitHit (s : State) (w : WaitFor) (newInbox : Bool) : Option Nat :=
  match w with
  | .token toks inbox _ _ hits _ _ =>
    let v := s.view
    let hit := fun i => hits.contains i || match toks[i]? with
      | none => false
      | some t => tokenEp t == s.fabric.eid && match s.granSpot v.root v.user false (tokenGran t) with
        | .ok l => s.syncV l && signalledBy (s.syncGen l) t
        | .error _ => false
    match (List.range toks.length).find? hit with
    | some i => some i
    | none => if inbox && newInbox then some toks.length else none
  | .inbox _ => if newInbox then some 0 else none
  | _ => none

/-- The trap of a wait whose word a test found with V = 0 (R91). A VLDG, the one instruction that waits with its strip open, has none: its
strip runs again (R130). -/
def WaitFor.trap (w : WaitFor) (strip : Bool) : List Trap :=
  match w with
  | .token _ _ _ (some t) _ _ _ => if strip then [] else [{ cause := .syncUninit, val := t }]
  | _ => []

/-- The completion of the instruction a coroutine waited in (R91, R253, R254): the trap of a word that a test found with V = 0, whatever
else holds by now, or its result; an instruction whose condition does not hold any more runs again. -/
def State.completeWait (s : State) (w : WaitFor) (newInbox : Bool) : State :=
  match w.trap s.hart.ctx.strip.isSome with
  | t :: _ => s.trapEntry t { sepc := s.pc }
  | [] =>
  match w, s.waitHit w newInbox with
  | .token _ _ _ _ _ dest false, some i => s.result (Fin.ofNat 32 dest) (word i)
  | .inbox dest, some i => s.result (Fin.ofNat 32 dest) (word i)
  | _, _ => s

/-- A coroutine starts running on its free home hart, in view (R26, R30, R31): the instruction in which it waited completes where its
condition holds; a trap that waits for it is delivered at this boundary, before that instruction (R251), whose own trap follows it (R91). -/
def State.startCoro (s : State) (cid : Nat) (k : Coro) : State :=
  let due := if k.traps.isEmpty then [] else k.traps ++ k.wait.trap k.ctx.strip.isSome
  let s := s.onCoro cid k.gid k.coid fun c => { c with running := true, wait := .ready, promo := 0, rage := 0, traps := due }
  let s := s.onFocus fun h => { h with ctx := k.ctx, level := .user, run := .running, occ := some (k.gid, k.coid), aside := [], ran := 0 }
  let s := s.fetchNext cid
  let new := decide (k.inboxMark < (s.core cid).inboxSeen)
  if k.traps.isEmpty then s.completeWait k.wait new else s

/-- Make a coroutine ready (R26); a spilled one is fetched (R29). -/
def State.ready (s : State) (cid gid coid : Nat) : State :=
  let now := (s.core cid).cycle
  let spilled := match (s.core cid).coro gid coid with | some k => !k.resident && !k.met | none => false
  let s := s.onCoro cid gid coid fun k =>
    { k with met := true, readyAt := if k.met then k.readyAt else now, promo := if k.met then k.promo else 0 }
  if spilled then s.later (.contextFetch cid gid coid) else s

/-! ### Granted units (R35) -/

/-- The owner of a waiting request holds all its units (R35): it goes on. -/
def State.unitsHeld (s : State) (w : UnitWait) : State :=
  match w.who with
  | .coro cid gid coid => s.ready cid gid coid
  | .hart a => s.onHart a fun h => match h.run with | .units _ _ => { h with run := .running } | _ => h
  | .copy id =>
    let s : State := { s with copies := s.copies.map fun c => if c.id == id then { c with held := .no } else c }
    s.later (.copyPieceLand id.toNat 0 0 0)
  | .stores cid => s.later (.remoteStoreSend cid)
  | .push i =>
    let free := fun p : Push => if p.id = i then { p with held := .no } else p
    ({ s with pushes := s.pushes.map free } : State).later (.skinkWriteLand 0)

/-- Units go to the requests that wait for an endpoint, in the order in which they began to wait (R35): the rest stays. -/
def giveUnits (ep : Nat) : List UnitWait → Nat → List UnitWait × List UnitWait × Nat
  | [], n => ([], [], n)
  | w :: ws, n =>
    if w.ep ≠ ep ∨ w.u ≤ w.got then let r := giveUnits ep ws n; (w :: r.1, r.2.1, r.2.2)
    else if w.got + n < w.u then ({ w with got := w.got + n } :: ws, [], 0)
    else
      let full := { w with got := w.u }
      let r := giveUnits ep ws (n - (w.u - w.got))
      (full :: r.1, full :: r.2.1, r.2.2)

/-- Units of an endpoint reach this device (R35). -/
def State.grant (s : State) (ep units : Nat) : State :=
  let r := giveUnits ep s.fabric.waits (s.fabric.unitsFor ep + units)
  let s : State := { s with fabric := { s.fabric with waits := r.1 }.setUnits ep r.2.2 }
  r.2.1.foldl State.unitsHeld s

/-- Requests that wait for units give up their places, and the units gathered for them go on (R35). -/
def State.dropUnits (s : State) (p : UnitWait → Bool) : State :=
  let gone := s.fabric.waits.filter p
  let t : State := { s with fabric := { s.fabric with waits := s.fabric.waits.filter (!p ·) } }
  gone.foldl (fun t w => if t.fabric.heldSelf w.ep then t else t.grant w.ep w.got) t

/-- Pushes are discarded, with their places among the requests that wait for units (R35, R42). -/
def State.dropPushes (s : State) (f : Push → Bool) : State :=
  let gone := (s.pushes.filter f).map fun p => UnitOwner.push p.id
  ({ s with pushes := s.pushes.filter (!f ·) } : State).dropUnits fun w => gone.contains w.who

/-! ### Creation and retirement -/

/-- The vector registers that hold something: those a new coroutine's record carries, since the others read as zero (R27,
R58, log entry 28). -/
def Ctx.nonzero (c : Ctx) : Nat := ((List.range 64).map fun i => if c.v.toList.getD i 0 = 0 then 0 else 2 ^ i).sum

/-- A new coroutine (R21). -/
def Coro.new (gid coid home base now : Nat) (c : Ctx) : Coro :=
  { gid := gid, coid := coid, home := home, running := false, wait := .ready, met := true, pre := false, base := base,
    promo := 0, readyAt := now, rage := 0, ctx := c, live := c.nonzero, msave := true, resident := true, copyRecs := [],
    inboxRec := none, traps := [], inboxMark := 0, hold := false, kc := 0, slot := 0, away := false, refusal := none }

/-- The coroutines of a gang. -/
def State.gangSize (s : State) (g : Gang) : Nat :=
  ((s.cores.filter fun c => s.partOf c.1 == g.part).map fun c => c.2.coros.countP fun k => k.gid == g.gid).sum

/-- The next COID of a gang: one more than the highest assigned, skipping live ones (R261). -/
def State.nextCoid (s : State) (g : Gang) : Nat :=
  let live := fun n => s.cores.any fun c => s.partOf c.1 == g.part && (c.2.coro g.gid n).isSome
  let step := fun n => if live n then (n + 1) % 2 ^ 32 else n
  (List.range (s.gangSize g)).foldl (fun n _ => step n) (g.nextCoid % 2 ^ 32)

/-- A context enters the context cache of a core, which spills where it is full (R29); where it cannot, the state in which the context
waits for room. -/
def State.takeIn (s : State) (cid : Nat) (k : Coro) : Except State State :=
  let t := (s.onCore cid fun c => { c with coros := c.coros ++ [{ k with away := false }] }).spill cid (Config.maxCoroutines + 1)
  if t.overFull cid then .error (s.noRoom cid (k.recordBytes (s.core cid).kc))
  else .ok (t.onCore cid fun c => { c with roomWaits := false })

/-- Create a coroutine of a gang on a core (R21, R25, R26), where its context finds room (R29). -/
def State.create (s : State) (g : Gang) (cid base : Nat) (c : Ctx) (rec_ : Option (Nat × Nat)) : Except State State :=
  let n := s.nextCoid g
  let k := s.core cid
  match s.takeIn cid { Coro.new g.gid n k.home base k.cycle c with inboxRec := rec_, kc := k.kc } with
  | .ok t => .ok (t.onGang g.part g.gid fun g => { g with nextCoid := (n + 1) % 2 ^ 32 })
  | .error t => .error t

/-- Retire a coroutine: its slot and context are released, a COPY_ABORT that waited for it goes to system software (R251), and the
last one of its gang starts the gang exit (R26, R262). -/
def State.retireCoro (s : State) (cid gid coid : Nat) : State :=
  let rec_ := ((s.core cid).coro gid coid).bind (·.inboxRec)
  let g := s.gangOn cid gid
  let left := match (s.core cid).coro gid coid with | some k => k.traps.filter fun (t : Trap) => t.cause == Cause.copyAbort | none => []
  let s := left.foldl (fun (t : State) (x : Trap) => t.postAsync cid x) s
  let s := s.onCore cid fun c => { c with coros := c.coros.filter fun k => !(k.gid == gid && k.coid == coid) }
  let s := match rec_ with
    | some u => (s.onCore u.1 fun c => c.release u.2).kickInbox u.1
    | none => s
  let s := ((s.kickInbox cid).fetchNext cid).respill cid
  match g with
  | some g =>
    if s.gangSize g = 0 then
      (s.onGang g.part g.gid fun g => { g with ending := true }).later (.gangExit g.gid)
    else s
  | none => s

/-! ### Messages -/

/-- A message's header (R92). -/
def msgHeader (m : Msg) : Nat :=
  m.type % 256 * 2 ^ 56 + m.sep % 2 ^ 13 * 2 ^ 43 + m.scid % 2 ^ 11 * 2 ^ 32 + (m.units - 1) % 4 * 2 ^ 30 + m.seq % 2 ^ 24

/-- The bytes of a message record (R92). -/
def msgBytes (m : Msg) : List Byte :=
  bytesOf 8 (msgHeader m) ++ (List.range (64 * m.units - 8)).map fun i => m.payload.getD i 0

/-- Write a record's bytes into the ring (R92). -/
def State.putRing (s : State) (cid unit : Nat) (bs : List Byte) : State :=
  let c := s.core cid
  let base := (c.inboxOff + unit) * 64
  let s := s.putBytes ((List.range bs.length).map fun i => (Loc.spad cid (base + i), bs.getD i 0))
  (List.range (bs.length / 8)).foldl (fun t i =>
    let l := Loc.spad cid (base + 8 * i)
    if t.poisonAt l then t.putPoison l false else t) s

/-- A coroutine awaiting the inbox becomes ready when a record enters the ring (R254). -/
def State.inboxArrived (s : State) (cid : Nat) : State :=
  let now := (s.core cid).cycle
  let wakes := fun k : Coro => !k.met && match k.wait with
    | .token _ true _ _ _ _ _ | .inbox _ => true
    | _ => false
  let spilled := (s.core cid).coros.filter fun k => wakes k && !k.resident
  let s := s.onCore cid fun c =>
    { c with
      inboxSeen := c.inboxSeen + 1
      coros := c.coros.map fun k => if wakes k then { k with met := true, readyAt := now } else k }
  spilled.foldl (fun t k => t.later (.contextFetch cid k.gid k.coid)) s

/-- Place a message in the inbox ring by R93 steps 1 and 2, if it fits. A pad record's header holds PAD and LEN; DESIGN CHOICE (log
entry 62): its TYPE, SEP, SCID and SEQ, which the spec does not give, are 0. -/
def State.placeInbox (s : State) (cid : Nat) (m : Msg) : Option State :=
  let c := s.core cid
  let t := c.inboxUnits - c.inboxW
  let record := fun unit => { unit := unit, units := m.units, pad := false, msg := m, made := false, raised := false, released := false : InboxRec }
  if m.units ≤ t ∧ m.units ≤ c.free then
    let w := c.inboxW
    let s := s.setCore cid { c with inbox := c.inbox ++ [record w], inboxW := (w + m.units) % c.inboxUnits }
    some (((s.putRing cid w (msgBytes m)).inboxArrived cid).later (.handlerCreate cid))
  else if t + m.units ≤ c.free then
    let w := c.inboxW
    let pad : InboxRec := { unit := w, units := t, pad := true, msg := m, made := true, raised := false, released := true }
    let s := s.setCore cid { c with inbox := advanceInbox (c.inbox ++ [pad, record 0]), inboxW := m.units % c.inboxUnits }
    let s := s.putRing cid w (bytesOf 8 (2 ^ 29 + (t - 1) % 4 * 2 ^ 30))
    some (((s.putRing cid 0 (msgBytes m)).inboxArrived cid).later (.handlerCreate cid))
  else none

/-- Units in the overflow ring (R95). -/
def Core.ovfUnits (c : Core) : Nat := (c.ovf.map (·.units)).sum

/-- The overflow ring's bytes of a new record, translated under the supervisor root (R95; layout: log entry 10). -/
def State.ovfSpots (s : State) (cid units : Nat) : Except Trap (List Loc) := do
  let c := s.core cid
  let root := (s.rootsOf (s.partOf cid)).2
  let us ← (List.range units).mapM fun i => do
    let va := (c.ovfbase.toNat % 2 ^ 57 / 64 * 64) + (c.ovfW + i) % (max 1 c.ovfSize) * 64
    let p ← s.pagedOnly root true va 64
    let q ← p.noTier va
    pure q.locs
  pure us.flatten

/-- What becomes of a message that arrives at a core (R93, R95, R96): placed; kept by its generator; or a breach whose
source receives a NACK, with the trap of the receiving core. -/
inductive Placed where
  | placed (s : State)
  | kept (s : State)
  | breach (s : State)
  /-- The ring's bytes are under a read lease, for which every store waits (R233). -/
  | wait

/-- A quota breach holds the source's allowance at zero (R37, R96): for a core of this device its own units for itself go, with
those gathered for requests that still wait. -/
def State.holdSource (s : State) (cid sep : Nat) : State :=
  let t := s.onCore cid (fun c => { c with holds := if c.holds.contains sep then c.holds else c.holds ++ [sep] })
  let f := { t.fabric with heldAt := if t.fabric.heldAt.contains sep then t.fabric.heldAt else t.fabric.heldAt ++ [sep] }
  { t with fabric := if sep = f.eid then f.holdUnits sep else f }

/-- An earlier message of the same source is refused and not yet placed: a later one must not enter before it (R92, R96). -/
def Core.behindRefused (c : Core) (m : Msg) : Bool :=
  match c.refused.find? fun r => r.1 == m.sep && r.2.1 == m.scid with
  | some r => r.2.2 != m.seq
  | none => false

/-- Remember that a message was refused (R96). -/
def Core.refuseMsg (c : Core) (m : Msg) : Core :=
  if c.refused.contains (m.sep, m.scid, m.seq) then c else { c with refused := c.refused ++ [(m.sep, m.scid, m.seq)] }

/-- A message that was refused has been placed. -/
def Core.placedMsg (c : Core) (m : Msg) : Core := { c with refused := c.refused.erase (m.sep, m.scid, m.seq) }

/-- Bytes of a core's inbox ring are under a read lease (R233). -/
def State.ringLeased (s : State) (cid : Nat) : Bool :=
  (s.hart :: s.harts.map (·.2)).any fun h => h.unchecked.any fun u => u.leases.any fun l => l.1 == cid && (s.core cid).inRing l.2

/-- SEQ `a` comes before SEQ `b` of one pair of cores (R92). -/
def seqBefore (a b : Nat) : Bool := let d := (b + 2 ^ 24 - a % 2 ^ 24) % 2 ^ 24; decide (1 ≤ d ∧ d < 2 ^ 23)

/-- An earlier message of the pair (core, same core), which the core's own MSENDs share with the messages the device generates (R400), is on
its way, kept or held: a later one must not enter before it (R92). -/
def State.behindOwnMsg (s : State) (cid : Nat) (m : Msg) : Bool :=
  m.sep == s.fabric.eid && m.scid == cid &&
    ((s.core cid).generated.any (fun k => seqBefore k.seq m.seq)
     || s.fabric.kept.any (fun k => k.ep == s.fabric.eid && k.cid == cid && k.dcid == cid && seqBefore k.msg.seq m.seq)
     || s.fabric.sent.any fun r => r.ep == s.fabric.eid && r.cid == cid && match r.op with
        | .msg d k => d == cid && seqBefore k.seq m.seq
        | _ => false)

/-- A held message of the device may follow one that has been placed. -/
def State.kickGenerated (s : State) (cid : Nat) : State :=
  if (s.core cid).generated.isEmpty then s else s.later (.generatedMsgPlace cid)

/-- A message arrives at a core (R92, R93, R95, R96, R233). -/
def State.arrive (s : State) (cid : Nat) (m : Msg) (generated : Bool) : Placed :=
  let c := s.core cid
  let keep := Placed.kept (s.onCore cid fun c => { c with generated := c.generated ++ [m] })
  let refused := s.onCore cid fun c => c.refuseMsg m
  if generated && (!c.generated.isEmpty || s.behindOwnMsg cid m) then keep
  else if !generated && s.behindOwnMsg cid m then .wait
  else if !generated && c.behindRefused m then .breach refused
  else if c.ovf.isEmpty && s.ringLeased cid then .wait
  else
    match if c.ovf.isEmpty then s.placeInbox cid m else none with
    | some t => .placed ((t.onCore cid fun c => c.placedMsg m).kickGenerated cid)
    | none =>
      let full := decide (c.ovfUnits + m.units > c.ovfSize)
      if generated && full then keep
      else if !generated && (decide (c.ovfUnits + m.units > c.ovfQuota) || full) then
        .breach ((refused.holdSource cid m.sep).postAsync cid { cause := .inboxQuota, val := word m.sep, val2 := word m.scid })
      else
        match s.ovfSpots cid m.units with
        | .error t =>
          if generated then keep
          else .breach ((refused.holdSource cid m.sep).postAsync cid { cause := .ovfFault, val := t.val, val2 := word m.sep })
        | .ok ls =>
          let s := s.putOwn (ls.zip (msgBytes m))
          .placed ((s.onCore cid fun c =>
            { c.placedMsg m with ovf := c.ovf ++ [m], ovfW := (c.ovfW + m.units) % (max 1 c.ovfSize) }).later (.overflowMove cid)
            |>.kickGenerated cid)

/-- The next SEQ of the pair (source CID, destination CID) (R400). DESIGN CHOICE (log entry 62): the pair names no endpoint, so
messages to one CID at two endpoints share one count. -/
def State.nextSeq (s : State) (src dst : Nat) : Nat × State :=
  let n := (s.fabric.msgSeq.lookup (src, dst)).getD 0
  (n, { s with fabric := { s.fabric with msgSeq := assocSet s.fabric.msgSeq (src, dst) ((n + 1) % 2 ^ 24) } })

/-- A message the device itself generates for a core (R95, R400). -/
def State.generate (s : State) (cid type : Nat) (payload : List Byte) : State :=
  let (n, s) := s.nextSeq cid cid
  match s.arrive cid { type := type, sep := s.fabric.eid, scid := cid, units := 1, seq := n, payload := payload } true with
  | .placed t | .kept t | .breach t => t
  | .wait => (s.onCore cid fun c => { c with generated := c.generated ++
      [{ type := type, sep := s.fabric.eid, scid := cid, units := 1, seq := n, payload := payload }] }).retry (.generatedMsgPlace cid)

/-- The messages kept for an endpoint are due to be sent again (R96): the first of them, which the others follow. -/
def State.resendKept (s : State) (ep : Nat) : State :=
  match s.fabric.kept.findIdx? fun k => k.ep == ep with
  | some n => s.later (.messageResend n)
  | none => s

/-- The holds of R96 on senders end: their allowance counts run again, and this device resends what it keeps for itself. -/
def State.releaseHolds (s : State) (cid : Nat) : State :=
  let hs := (s.core cid).holds
  let t := s.onCore cid (fun c => { c with holds := [] })
  let still := t.fabric.heldAt.filter (fun e => !(hs.contains e) || t.cores.any (fun c => c.2.holds.contains e))
  let t : State := { t with fabric := { t.fabric with heldAt := still } }
  if hs.contains t.fabric.eid then t.resendKept t.fabric.eid else t

/-- An answer of this device to a request: to another endpoint it leaves over a port in RUN (R384), to its own EID it loops back (R82,
R374). -/
def State.respond (s : State) (sep scid rid : Nat) (r : Resp) : State :=
  if sep = s.fabric.eid then s.later (.remoteResponse rid r)
  else if s.linked then { s with fabric := { s.fabric with out := s.fabric.out ++ [.response sep scid rid r] } }
  else s

/-- A NACK of this device (R82, R374). -/
def State.refuse (s : State) (sep scid rid : Nat) : State :=
  if sep = s.fabric.eid then s.later (.remoteNack rid)
  else if s.linked then { s with fabric := { s.fabric with out := s.fabric.out ++ [.nack sep scid rid] } }
  else s

/-! ### Commits -/

/-- The bits of a request that a set of committed elements leaves active, with their indices and data (R220, R376). -/
def vecRestrict (v : VecReq) (keep : List Nat) : VecReq :=
  let act := (List.range v.vl).filter fun i => v.act.getD i false
  let sel := (List.range act.length).filter fun r => keep.contains (act.getD r 0)
  { v with act := (List.range v.vl).map keep.contains,
           idx := sel.filterMap fun r => v.idx[r]?, data := sel.filterMap fun r => v.data[r]?, bad := v.bad.filter keep.contains }

/-- The number of active elements of a request. -/
def vecCount (v : VecReq) : Nat := v.act.countP id

/-- The payload bytes of a request (R223). -/
def vecPayload (v : VecReq) : Nat :=
  let iw := if v.ixw then 8 else 4
  vecCount v * ((if v.kind = 2 ∨ v.kind = 4 then iw else 0) + (if v.kind ≥ 3 then 2 ^ v.esz else 0))

/-- The units of a packet with a payload of `p` bytes (R375). -/
def unitsOf (p : Nat) : Nat := 1 + (p + 63) / 64

/-- The address of element i of a request at the target (R212, R223). -/
def vecAddr (v : VecReq) (i rank : Nat) : Nat :=
  if v.kind = 1 ∨ v.kind = 3 then (v.base + BitVec.ofNat 64 i * v.stride).toNat
  else (v.base + word (v.idx.getD rank 0 * 2 ^ v.esz)).toNat

/-- The bytes a store request writes, in index order (R114). -/
def vecWrites (v : VecReq) : List (Nat × List Byte × Bool) :=
  let act := (List.range v.vl).filter fun i => v.act.getD i false
  (List.range act.length).map fun r => (vecAddr v (act.getD r 0) r, bytesOf (2 ^ v.esz) (v.data.getD r 0), v.bad.contains (act.getD r 0))

/-- A combining-buffer line as a write request (R375, R380); `group` gives an endpoint's group. -/
def CombLine.store (group : Nat → Nat) (l : CombLine) : RemoteStore :=
  let data := (List.range 64).map fun i => l.bytes.lookup i
  let words := ((l.bytes.map fun b => b.1 / 8).dedup).length
  { ep := l.ep, gid := l.owner.1, coid := l.owner.2, op := .store (word (l.line * 64)) data l.bad, u := unitsOf (8 * words),
    group := group l.ep }

/-- Remote stores that a core queues at most (R225). -/
def maxQueued : Nat := 64

/-- Send some combining-buffer lines on their way (R113), the earliest first, as far as the queue has room (R225); the others leave as soon
as it has. -/
def Core.sendLines (c : Core) (group : Nat → Nat) (which : CombLine → Bool) : Core :=
  let all := c.comb.map fun l => { l with due := l.due || which l }
  let go := (all.filter (·.due)).take (maxQueued - c.outq.length)
  { c with comb := all.filter (!go.contains ·), outq := c.outq ++ go.map (CombLine.store group) }

/-- Send some combining-buffer lines of a core on their way (R113). -/
def State.sendLines (s : State) (cid : Nat) (which : CombLine → Bool) : State := s.onCore cid fun c => c.sendLines s.groupOf which

/-- A line is full (R113). -/
def CombLine.full (l : CombLine) : Bool := l.bytes.length == 64

/-- One byte of a remote store of at most 8 bytes enters the combining buffer (R113, R380; log entry 9): a store that needs a new
line when all 64 are in use first sends the line that was filled earliest, where the queue has room. -/
def Core.combine (c : Core) (group : Nat → Nat) (ep : Nat) (own : Nat × Nat) (bad : Bool) (a : Nat) (b : Byte) : Core :=
  let hit := fun l : CombLine => l.ep == ep && l.line == a / 64 && l.owner == own
  let c := if c.comb.any hit then c
    else
      let first := c.comb.head?
      let c := if c.comb.length < 64 then c else c.sendLines group fun l => some l == first
      { c with comb := c.comb ++ [{ ep := ep, line := a / 64, bytes := [], bad := [], owner := own, since := c.cycle, due := false }] }
  let put := fun l : CombLine => if hit l then
      { l with bytes := assocSet l.bytes (a % 64) b,
               bad := if bad then sortedInsert (listErase l.bad (a % 64)) (a % 64) else listErase l.bad (a % 64) }
    else l
  { c with comb := c.comb.map put }

/-- One element enters the combining buffer as a whole; then the lines that are full leave (R104, R113). -/
def Core.combineElem (c : Core) (group : Nat → Nat) (ep : Nat) (own : Nat × Nat) (bad : Bool) (a : Nat) (bs : List Byte) : Core :=
  ((List.range bs.length).foldl (fun c i => c.combine group ep own bad ((a + i) % 2 ^ 64) (bs.getD i 0)) c).sendLines group CombLine.full

/-- A line of a coroutine for an endpoint. -/
def CombLine.isOf (l : CombLine) (ep : Nat) (own : Nat × Nat) : Bool := l.ep == ep && l.owner == own

/-- Remote stores newly in the outbound queue are due to leave (R113, R225). -/
def State.sendQueued (s : State) (cid : Nat) (before : Nat) : State :=
  if (s.core cid).outq.length = before then s else s.later (.remoteStoreSend cid)

/-- The committed elements of one remote request: the request restricted to them (R225). At most 8 bytes enter the combining
buffer (R113); more than 8 queue behind the coroutine's buffered lines for the same endpoint (R106, R114). A commit that would queue
more than 64 stores waits. DESIGN CHOICE (log entry 87): the spec does not say which lines of an endpoint lie in one slice, so they are
kept in order as if all did. -/
def State.commitRemote (s : State) (ep : Nat) (v : VecReq) (keep : List Nat) : Except Stop State :=
  let w := vecRestrict v keep
  let c := s.core s.cid
  let n := c.outq.length
  if vecCount w * 2 ^ w.esz ≤ 8 then
    let d := (vecWrites w).foldl (fun c e => c.combineElem s.groupOf ep s.own e.2.2 e.1 e.2.1) c
    if d.comb.length > 64 then .error .wait else .ok ((s.setCore s.cid d).sendQueued s.cid n)
  else
    let d := c.sendLines s.groupOf fun l => l.isOf ep s.own
    if (d.comb.any fun l => l.isOf ep s.own) ∨ d.outq.length ≥ maxQueued then .error .wait
    else
      let q : RemoteStore := { ep := ep, gid := s.own.1, coid := s.own.2, op := .vec w, u := unitsOf (vecPayload w), group := s.groupOf ep }
      .ok ((s.setCore s.cid { d with outq := d.outq ++ [q] }).sendQueued s.cid n)

/-- A tier-access notice for a page that is not in the core's notice table (R99). -/
def State.notice (s : State) (page : Nat × Nat) : State :=
  match s.cid? with
  | none => s
  | some cid =>
    if (s.core cid).notice.contains (page.1, s.view.root) then s
    else
      let s := s.onCore cid fun c =>
        { c with notice := (if c.notice.length ≥ Config.noticeEntries then c.notice.drop 1 else c.notice) ++ [(page.1, s.view.root)] }
      s.generate cid 0xF3 (bytesOf 8 page.1 ++ bytesOf 8 page.2 ++ bytesOf 8 0)

/-- The local partition and the write permission bound to a source (R379): the lowest valid entry that matches. -/
def State.boundTo (s : State) (sep spart : Nat) : Option (Nat × Bool) :=
  let e := fun i => s.dev8 (Config.fabricBase + 0x2000 + 8 * i)
  ((List.range 256).find? fun i => bit (e i) 63 && bits (e i) 60 48 == sep && bits (e i) 47 44 == spart).map fun i =>
    (bits (e i) 43 40, bit (e i) 62)

/-- The place on this device that an address of its own endpoint names for the partition of the agent in view (R82). -/
def State.loopPlace (s : State) (write : Bool) (a : Nat) : Option Loc :=
  match s.boundTo s.fabric.eid (s.partOf s.cid) with
  | none => none
  | some (part, _) => match s.locateBound part (a % 2 ^ 64) 1 1 write with
    | .ok p => p.locs.head?
    | .error _ => none

/-- The addresses of a store request. -/
def opAddrs (op : ReqOp) : List Nat :=
  match op with
  | .store a data _ => (List.range data.length).filterMap fun i => if (data.getD i none).isSome then some ((a.toNat + i) % 2 ^ 64) else none
  | .vec v => if v.kind ≥ 3 then (vecWrites v).flatMap fun e => (List.range e.2.1.length).map fun i => (e.1 + i) % 2 ^ 64 else []
  | _ => []

/-- A message of a coroutine to an endpoint, which is a store too (R118), is on its way or kept: it has not been performed. -/
def State.msgAhead (s : State) (cid : Nat) (own : Nat × Nat) (ep : Nat) : Bool :=
  (s.fabric.sent.any fun r => r.ep == ep && r.cid == cid && match r.cont with | .msg _ g n => (g, n) == own | _ => false)
  || s.fabric.kept.any fun k => k.ep == ep && k.cid == cid && (k.gid, k.coid) == own

/-- A store to the device's own EID that the coroutine in view has committed is not yet performed on some of these places (R105, R106):
a later access of the coroutine to them comes after it. -/
def State.loopAhead (s : State) (ls : List Loc) : Bool :=
  let hits := fun as : List Nat => as.any fun a => match s.loopPlace true a with | some l => ls.contains l | none => false
  ((s.core s.cid).comb.any fun l => l.isOf s.fabric.eid s.own && hits (l.bytes.map fun y => l.line * 64 + y.1))
  || ((s.core s.cid).outq.any fun q => q.ep == s.fabric.eid && (q.gid, q.coid) == s.own && hits (opAddrs q.op))
  || s.fabric.sent.any fun r => r.ep == s.fabric.eid && r.cid == s.cid
      && (match r.cont with | .store _ g n _ => (g, n) == s.own | _ => false) && hits (opAddrs r.op)

/-- Commit one local pending element (R219): its bits change, the others stay. It comes after the coroutine's own stores to its bytes
(R106), takes its tier notices (R99), and the last element of an E-word that fills a word with clean bytes ends its poison (R360). -/
def State.commitOne (s : State) (p : Pend) : Except Stop State := do
  if s.loopAhead (p.bytes.map (·.1)) || (!p.tiers.isEmpty && !s.tierUp) then .error .wait else pure ()
  let s := p.tiers.foldl State.notice s
  let s ← s.perform (p.bytes.map fun b =>
    (b.1, BitVec.ofNat 8 (((s.byteAt b.1).toNat &&& (255 - b.2.2)) ||| (b.2.1 &&& b.2.2))))
  let s := p.whole.foldl (fun t l => if t.poisonAt l then t.putPoison l false else t) s
  if p.poisoned then pure ((p.bytes.map fun b => b.1.word).dedup.foldl (fun t l => t.putPoison l true) s) else pure s

/-- The pending elements that commit together first, and the rest: one local element, or the elements of one remote request
(R219, R225). -/
def firstCommit : List Pend → List Pend × List Pend
  | [] => ([], [])
  | p :: r =>
    match p.remote with
    | none => ([p], r)
    | some _ =>
      let same := fun q : Pend => q.remote == p.remote && decide (p.idx < q.idx)
      (p :: r.takeWhile same, r.dropWhile same)

/-- Commit the pending elements that go together (R219, R225). -/
def State.commitGroup (s : State) (g : List Pend) : Except Stop State :=
  match g with
  | [] => .ok s
  | p :: r =>
    match p.remote with
    | none => s.commitOne p
    | some (ep, v) => s.commitRemote ep v (p.idx :: r.map (·.idx))

/-- Commit pending elements in program order as far as none has to wait (R106, R219, R225): the state, and whether all are
committed. -/
def State.commitList (s : State) : Nat → List Pend → State × List Pend
  | 0, l => (s, l)
  | n + 1, l =>
    if l.isEmpty then (s, [])
    else
      match s.commitGroup (firstCommit l).1 with
      | .ok t => t.commitList n (firstCommit l).2
      | .error _ => (s, l)

/-- Commit the listed pending stores of the agent in view, and keep those that have to wait (R109, R177, R225). -/
def State.commitThese (s : State) (l : List Pend) : State :=
  let r := (s.onFocus fun h => { h with pend := [] }).commitList l.length l
  r.1.onFocus fun h => { h with pend := r.2 }

/-- Commit the pending stores of the agent in view as far as none has to wait (R109, R177, R225). -/
def State.commitSome (s : State) : State := s.commitThese s.hart.pend

/-- Commit every pending store of the agent in view (R109, R177). -/
def State.commitAll (s : State) : Except Stop State :=
  if s.commitSome.hart.pend.isEmpty then .ok s.commitSome else .error .wait

/-- CLOSE A STRIP (R177): wait for the blocks fetched before, commit the pending stores; NOSPEC ends with the strip (R301). -/
def State.closeStrip (s : State) : Except Stop State :=
  if s.hart.blocks ≠ [] then .error .wait
  else do
    let t ← s.commitAll
    pure (t.onFocus fun h =>
      match h.ctx.strip with
      | none => h
      | some _ => { h with committing := false, ctx := { h.ctx with strip := none }, sstatus := setBit h.sstatus nospecBit false })

/-- The outcome of an S-word: its next state, the same state while it waits, or its trap (R159). -/
def State.settle (s : State) (r : Except Stop State) : Host.Outcome State Fault Refusal :=
  match r with
  | .ok t => .next t
  | .error .wait => .next s
  | .error (.trap t) => if t = hostWait then .next s else .next (s.swordTrap t)

/-- An S-word that may fault or close a strip: its blocks first reach VSTOP, then it acts (R159, R177). -/
def State.sword (s : State) (f : State → Except Stop State) : Host.Outcome State Fault Refusal :=
  s.settle (if s.hart.blocks ≠ [] then .error .wait else f s)

/-- The hart in view keeps the S-word at its PC as it fetched it (R136). -/
def State.keepWord (s : State) : State :=
  match s.aheadWord 1 s.pc.toNat, s.fetchBits s.view 1 s.pc.toNat 4 with
  | none, .ok w => s.onFocus fun h => { h with ahead := h.ahead ++ [(1, s.pc.toNat, w)] }
  | _, _ => s

/-- A close that has to wait commits the stores that can commit (R225). Once it has committed one of an open strip, nothing restarts the
strip, whose stores would be repeated (R177): the closing S-word goes on as it was fetched, so that no fetch of it can fault any more. -/
def State.closeSome (s : State) : State :=
  let t := s.commitSome
  if t.hart.pend.length < s.hart.pend.length ∧ t.hart.ctx.strip.isSome then s.keepWord.commitSome.onFocus fun h => { h with committing := true }
  else t

/-- An S-word of R39: it closes an open strip, then acts; its faults are then taken with no strip open (R245). While the closing
has to wait, the stores that can commit do (R225). -/
def State.closing (s : State) (f : State → Except Stop State) : Host.Outcome State Fault Refusal :=
  match s.closeStrip with
  | .error .wait => .next (if s.hart.blocks = [] then s.closeSome else s)
  | .error (.trap t) => .next (s.swordTrap t)
  | .ok t => t.settle (f t)

/-- ILLEGAL at an S-word, with its bits as SWORD (R138, R293). -/
def State.illegal (s : State) (bad : Word) : Host.Outcome State Fault Refusal :=
  if s.hart.blocks ≠ [] then .next s else .next (s.swordTrap { cause := .illegal } bad)

/-- The decode-time checks of an S-word (R138): an illegal field raises ILLEGAL and nothing else. -/
def State.checked (s : State) (i : Instr) (k : Host.Outcome State Fault Refusal) : Host.Outcome State Fault Refusal :=
  if legal i then k else s.illegal (word ((encodeS i).getD 0))

/-- An S-word goes on where a check of the words it reads passes, and traps otherwise. -/
def State.clean (s : State) (check : Except Trap Unit) (k : Host.Outcome State Fault Refusal) : Host.Outcome State Fault Refusal :=
  match check with
  | .ok _ => k
  | .error t => s.sword fun _ => .error (.trap t)

/-- An S-word whose effect has no poison mark raises POISON for a poisoned register that it reads (R354; log entry 68). -/
def State.unpoisoned (s : State) (rs : List Reg) (k : Host.Outcome State Fault Refusal) : Host.Outcome State Fault Refusal :=
  s.clean (s.regClean rs) k

/-- A check of a trap as an S-word's stop. -/
def lift {α : Type} (e : Except Trap α) : Except Stop α :=
  match e with
  | .ok a => .ok a
  | .error t => .error (.trap t)

end Sys2Proof.Machine
end

