-- ==== Sys2Proof/Machine/Scalar.lean ====
section
/-! DEFINITION. Integer and address arithmetic: OP, the immediate forms, LUI and AIPC (R161 to R164). None faults, none
touches memory or FCSR, and each writes one register. -/

namespace Sys2Proof.Machine

/-- TruncDiv of R162 on 64-bit patterns, with the fixed results for a zero divisor and for overflow. -/
def divSigned (a b : Word) : Word :=
  if b = 0 then BitVec.allOnes 64
  else if a = BitVec.intMin 64 ∧ b = BitVec.allOnes 64 then BitVec.intMin 64
  else BitVec.ofInt 64 (Int.tdiv a.toInt b.toInt)

/-- REM of R162. -/
def remSigned (a b : Word) : Word :=
  if b = 0 then a
  else if a = BitVec.intMin 64 ∧ b = BitVec.allOnes 64 then 0
  else BitVec.ofInt 64 (a.toInt - b.toInt * Int.tdiv a.toInt b.toInt)

/-- Number of 0 bits above the highest 1 bit of a w-bit number, w for 0 (R162, R193). -/
def leadingZeros : Nat → Nat → Nat
  | 0, _ => 0
  | w + 1, x => if bit x w then 0 else 1 + leadingZeros w x

/-- Number of 0 bits below the lowest 1 bit of a w-bit number, w for 0 (R162). -/
def trailingZeros : Nat → Nat → Nat
  | 0, _ => 0
  | w + 1, x => if bit x 0 then 0 else 1 + trailingZeros w (x / 2)

/-- Number of 1 bits of a w-bit number (R162, R193). -/
def onesCount : Nat → Nat → Nat
  | 0, _ => 0
  | w + 1, x => x % 2 + onesCount w (x / 2)

/-- A shift amount of R162: bits [5:0]. -/
def shiftAmount (b : Word) : Nat := b.toNat % 64

/-- A truth value as a register (R162). -/
def truth (b : Bool) : Word := if b then 1 else 0

/-- ADD (R162): Adds two scalar registers modulo 2^64. -/
def execAdd (d ra rb : Reg) (s : State) : Host.Outcome State Fault Refusal :=
  let a := s.x ra
  let b := s.x rb
  .next (s.result d (a + b) [ra, rb])

/-- SUB (R162): Subtracts xb from xa modulo 2^64. -/
def execSub (d ra rb : Reg) (s : State) : Host.Outcome State Fault Refusal :=
  let a := s.x ra
  let b := s.x rb
  .next (s.result d (a - b) [ra, rb])

/-- MUL (R162): Writes the low 64 bits of the signed product. -/
def execMul (d ra rb : Reg) (s : State) : Host.Outcome State Fault Refusal :=
  let a := s.x ra
  let b := s.x rb
  .next (s.result d (a * b) [ra, rb])

/-- MULH (R162): Writes the high 64 bits of the signed 128-bit product. -/
def execMulh (d ra rb : Reg) (s : State) : Host.Outcome State Fault Refusal :=
  let a := s.x ra
  let b := s.x rb
  .next (s.result d (BitVec.ofInt 64 (a.toInt * b.toInt / 2 ^ 64)) [ra, rb])

/-- MULHN (R162): Writes the high 64 bits of the unsigned 128-bit product. -/
def execMulhn (d ra rb : Reg) (s : State) : Host.Outcome State Fault Refusal :=
  let a := s.x ra
  let b := s.x rb
  .next (s.result d (BitVec.ofNat 64 (a.toNat * b.toNat / 2 ^ 64)) [ra, rb])

/-- DIV (R162): Signed division rounded toward zero, with fixed results for zero divisors and overflow. -/
def execDiv (d ra rb : Reg) (s : State) : Host.Outcome State Fault Refusal :=
  let a := s.x ra
  let b := s.x rb
  .next (s.result d (divSigned a b) [ra, rb])

/-- DIVN (R162): Unsigned division, giving all ones for a zero divisor. -/
def execDivn (d ra rb : Reg) (s : State) : Host.Outcome State Fault Refusal :=
  let a := s.x ra
  let b := s.x rb
  .next (s.result d (if b = 0 then BitVec.allOnes 64 else a / b) [ra, rb])

/-- REM (R162): Signed remainder of truncating division. -/
def execRem (d ra rb : Reg) (s : State) : Host.Outcome State Fault Refusal :=
  let a := s.x ra
  let b := s.x rb
  .next (s.result d (remSigned a b) [ra, rb])

/-- REMN (R162): Unsigned remainder. -/
def execRemn (d ra rb : Reg) (s : State) : Host.Outcome State Fault Refusal :=
  let a := s.x ra
  let b := s.x rb
  .next (s.result d (if b = 0 then a else a % b) [ra, rb])

/-- AND (R162): Bitwise AND of two registers. -/
def execAnd (d ra rb : Reg) (s : State) : Host.Outcome State Fault Refusal :=
  let a := s.x ra
  let b := s.x rb
  .next (s.result d (a &&& b) [ra, rb])

/-- OR (R162): Bitwise OR of two registers. -/
def execOr (d ra rb : Reg) (s : State) : Host.Outcome State Fault Refusal :=
  let a := s.x ra
  let b := s.x rb
  .next (s.result d (a ||| b) [ra, rb])

/-- XOR (R162): Bitwise XOR of two registers. -/
def execXor (d ra rb : Reg) (s : State) : Host.Outcome State Fault Refusal :=
  let a := s.x ra
  let b := s.x rb
  .next (s.result d (a ^^^ b) [ra, rb])

/-- SLL (R162): Shifts left by xb[5:0]. -/
def execSll (d ra rb : Reg) (s : State) : Host.Outcome State Fault Refusal :=
  let a := s.x ra
  let b := s.x rb
  .next (s.result d (a <<< shiftAmount b) [ra, rb])

/-- SRL (R162): Logical right shift by xb[5:0]. -/
def execSrl (d ra rb : Reg) (s : State) : Host.Outcome State Fault Refusal :=
  let a := s.x ra
  let b := s.x rb
  .next (s.result d (a >>> shiftAmount b) [ra, rb])

/-- SRA (R162): Arithmetic right shift by xb[5:0], rounding toward minus infinity. -/
def execSra (d ra rb : Reg) (s : State) : Host.Outcome State Fault Refusal :=
  let a := s.x ra
  let b := s.x rb
  .next (s.result d (a.sshiftRight (shiftAmount b)) [ra, rb])

/-- SLT (R162): Sets xd to 1 if xa is less than xb, signed. -/
def execSlt (d ra rb : Reg) (s : State) : Host.Outcome State Fault Refusal :=
  let a := s.x ra
  let b := s.x rb
  .next (s.result d (truth (a.slt b)) [ra, rb])

/-- SLTN (R162): Sets xd to 1 if xa is less than xb, unsigned. -/
def execSltn (d ra rb : Reg) (s : State) : Host.Outcome State Fault Refusal :=
  let a := s.x ra
  let b := s.x rb
  .next (s.result d (truth (a.ult b)) [ra, rb])

/-- MIN (R162): Signed minimum. -/
def execMin (d ra rb : Reg) (s : State) : Host.Outcome State Fault Refusal :=
  let a := s.x ra
  let b := s.x rb
  .next (s.result d (if a.slt b then a else b) [ra, rb])

/-- MAX (R162): Signed maximum. -/
def execMax (d ra rb : Reg) (s : State) : Host.Outcome State Fault Refusal :=
  let a := s.x ra
  let b := s.x rb
  .next (s.result d (if a.slt b then b else a) [ra, rb])

/-- MINN (R162): Unsigned minimum. -/
def execMinn (d ra rb : Reg) (s : State) : Host.Outcome State Fault Refusal :=
  let a := s.x ra
  let b := s.x rb
  .next (s.result d (if a.ult b then a else b) [ra, rb])

/-- MAXN (R162): Unsigned maximum. -/
def execMaxn (d ra rb : Reg) (s : State) : Host.Outcome State Fault Refusal :=
  let a := s.x ra
  let b := s.x rb
  .next (s.result d (if a.ult b then b else a) [ra, rb])

/-- SLLI (R162): Shifts left by an immediate amount 0..63. -/
def execSlli (d ra : Reg) (n : BitVec 6) (s : State) : Host.Outcome State Fault Refusal :=
  .next (s.result d (s.x ra <<< n.toNat) [ra])

/-- SRLI (R162): Logical right shift by an immediate amount. -/
def execSrli (d ra : Reg) (n : BitVec 6) (s : State) : Host.Outcome State Fault Refusal :=
  .next (s.result d (s.x ra >>> n.toNat) [ra])

/-- SRAI (R162): Arithmetic right shift by an immediate amount. -/
def execSrai (d ra : Reg) (n : BitVec 6) (s : State) : Host.Outcome State Fault Refusal :=
  .next (s.result d ((s.x ra).sshiftRight n.toNat) [ra])

/-- CLZ (R162): Counts leading zero bits of xa. -/
def execClz (d ra : Reg) (s : State) : Host.Outcome State Fault Refusal :=
  .next (s.result d (word (leadingZeros 64 (s.x ra).toNat)) [ra])

/-- CTZ (R162): Counts trailing zero bits of xa. -/
def execCtz (d ra : Reg) (s : State) : Host.Outcome State Fault Refusal :=
  .next (s.result d (word (trailingZeros 64 (s.x ra).toNat)) [ra])

/-- POPC (R162): Counts the one bits of xa. -/
def execPopc (d ra : Reg) (s : State) : Host.Outcome State Fault Refusal :=
  .next (s.result d (word (onesCount 64 (s.x ra).toNat)) [ra])

/-- ADDI (R163): Adds a sign-extended 15-bit immediate. -/
def execAddi (d ra : Reg) (i : BitVec 15) (s : State) : Host.Outcome State Fault Refusal :=
  .next (s.result d (s.x ra + i.signExtend 64) [ra])

/-- ANDI (R163): ANDs with a sign-extended immediate. -/
def execAndi (d ra : Reg) (i : BitVec 15) (s : State) : Host.Outcome State Fault Refusal :=
  .next (s.result d (s.x ra &&& i.signExtend 64) [ra])

/-- ORI (R163): ORs with a sign-extended immediate. -/
def execOri (d ra : Reg) (i : BitVec 15) (s : State) : Host.Outcome State Fault Refusal :=
  .next (s.result d (s.x ra ||| i.signExtend 64) [ra])

/-- XORI (R163): XORs with a sign-extended immediate. -/
def execXori (d ra : Reg) (i : BitVec 15) (s : State) : Host.Outcome State Fault Refusal :=
  .next (s.result d (s.x ra ^^^ i.signExtend 64) [ra])

/-- SLTI (R163): Signed compare with a sign-extended immediate. -/
def execSlti (d ra : Reg) (i : BitVec 15) (s : State) : Host.Outcome State Fault Refusal :=
  .next (s.result d (truth ((s.x ra).slt (i.signExtend 64))) [ra])

/-- LUI (R164): Loads a sign-extended 20-bit immediate shifted left by 15. -/
def execLui (d : Reg) (i : BitVec 20) (s : State) : Host.Outcome State Fault Refusal :=
  .next (s.result d (i.signExtend 64 <<< 15))

/-- AIPC (R164): Adds a shifted 20-bit immediate to the PC. -/
def execAipc (d : Reg) (i : BitVec 20) (s : State) : Host.Outcome State Fault Refusal :=
  .next (s.result d (s.pc + (i.signExtend 64 <<< 15)))

end Sys2Proof.Machine
end

