-- ==== Sys2Proof/Machine/Control.lean ====
section
/-! DEFINITION. Branches, jumps, BSA and the loop instructions LOOPV and LOOPST (R171 to R173, R182, R184, R264). -/

namespace Sys2Proof.Machine

/-- A branch target of format SB (R137). -/
def State.target15 (s : State) (o : BitVec 15) : Word := s.pc + (o.signExtend 64 <<< 2)

/-- A jump target of format SJ (R137). -/
def State.target20 (s : State) (o : BitVec 20) : Word := s.pc + (o.signExtend 64 <<< 2)

/-- Execution goes on at a target where a condition holds, else at the next S-word (R171). -/
def State.branch (s : State) (c : Bool) (o : BitVec 15) : State :=
  (if c then s.setPc (s.target15 o) else s.stepPc).retire

/-- A branch on a condition of some registers (R171, R264). Which way a run goes is a result it can read, and the PC has no mark: a poisoned
register raises POISON (R354; log entry 68). -/
def State.branchOn (s : State) (rs : List Reg) (c : Bool) (o : BitVec 15) : Host.Outcome State Fault Refusal :=
  s.unpoisoned rs <| .next (s.branch c o)

/-- BEQ (R171): branches when xa equals xb. -/
def execBeq (a b : Reg) (o : BitVec 15) (s : State) : Host.Outcome State Fault Refusal :=
  s.branchOn [a, b] (s.x a == s.x b) o

/-- BNE (R171): branches when xa differs from xb. -/
def execBne (a b : Reg) (o : BitVec 15) (s : State) : Host.Outcome State Fault Refusal :=
  s.branchOn [a, b] (s.x a != s.x b) o

/-- BLT (R171): branches when xa is less than xb, signed. -/
def execBlt (a b : Reg) (o : BitVec 15) (s : State) : Host.Outcome State Fault Refusal :=
  s.branchOn [a, b] ((s.x a).slt (s.x b)) o

/-- BGE (R171): branches when xa is at least xb, signed. -/
def execBge (a b : Reg) (o : BitVec 15) (s : State) : Host.Outcome State Fault Refusal :=
  s.branchOn [a, b] (!(s.x a).slt (s.x b)) o

/-- BLTN (R171): branches when xa is less than xb, unsigned. -/
def execBltn (a b : Reg) (o : BitVec 15) (s : State) : Host.Outcome State Fault Refusal :=
  s.branchOn [a, b] ((s.x a).ult (s.x b)) o

/-- BGEN (R171): branches when xa is at least xb, unsigned. -/
def execBgen (a b : Reg) (o : BitVec 15) (s : State) : Host.Outcome State Fault Refusal :=
  s.branchOn [a, b] (!(s.x a).ult (s.x b)) o

/-- BSA (R264): branches if SAg is at least xb, unsigned, without drawing on it. -/
def execBsa (g : Fin 16) (b : Reg) (o : BitVec 15) (s : State) : Host.Outcome State Fault Refusal :=
  s.branchOn [b] (decide ((s.x b).toNat ≤ s.groupUnits g.val)) o

/-- LOOPV (R182): c := xa - min(xa, VL); xa := c; VL := min(VL, c); branches while c is not 0. With xa = x0, c is 0. It branches by VL, so
that a marked VL raises POISON too (log entry 68). -/
def execLoopv (a : Reg) (o : BitVec 15) (s : State) : Host.Outcome State Fault Refusal :=
  let c := (s.x a).toNat - s.hart.ctx.vl
  s.clean (do s.regClean [a]; s.lengthClean [vlMark]) <|
    let s := s.setCtx (s.hart.ctx.put a (word c))
    let s := s.setCtx { s.hart.ctx with vl := min s.hart.ctx.vl c }
    .next (s.branch (c != 0) o)

/-- A jump links: xd := PC + 4, which carries no poison. -/
def State.link (s : State) (d : Reg) : State := s.setCtx ((s.hart.ctx.put d (s.pc + 4)).mark d false)

/-- JAL (R172): xd := PC + 4, PC := target. -/
def execJal (d : Reg) (o : BitVec 20) (s : State) : Host.Outcome State Fault Refusal :=
  .next ((s.link d).setPc (s.target20 o)).retire

/-- JALR (R172): the target uses xa before xd is written; a target that is not 4-byte aligned faults with MISALIGNED. A poisoned xa raises
POISON, as in a branch. -/
def execJalr (d a : Reg) (i : BitVec 15) (s : State) : Host.Outcome State Fault Refusal :=
  let t := s.x a + i.signExtend 64
  s.unpoisoned [a] <|
  if t &&& 3 = 0 then .next ((s.link d).setPc t).retire
  else s.sword fun _ => .error (.trap { cause := .misaligned, val := t })

/-- LPS.P (R56). -/
def lpsP (w : Word) : Nat := bits w.toNat 3 0
/-- LPS.SM1 (R56). -/
def lpsSm1 (w : Word) : Nat := bits w.toNat 5 4
/-- The stage guards that an LPS opens: stage s + 1 from s = S on has a bit that is 0 (R147). -/
def lpsGuards (w : Word) : Nat := lpsP w % 2 ^ (lpsSm1 w + 1)
/-- LPS.RLEFT (R56). -/
def lpsLeft (w : Word) : Nat := bits w.toNat 63 32
/-- LPS from its fields (R56). -/
def lpsOf (left sm1 p : Nat) : Word := word (left % 2 ^ 32 * 2 ^ 32 + sm1 % 4 * 16 + p % 16)

/-- LOOPST (R41, R184): opens a software-pipelined loop, or performs the closing step of the open one. -/
def execLoopst (a : Reg) (sc : BitVec 5) (o : BitVec 15) (s : State) : Host.Outcome State Fault Refusal :=
  s.checked (.loopst a sc o) <|
    let l := s.hart.ctx.lps
    let set := fun (w : Word) => s.setCtx { s.hart.ctx with lps := w }
    if lpsP l = 0 then
      s.unpoisoned [a] <|
      let n := (s.x a).toNat
      if n > 2 ^ 32 then s.sword fun _ => .error (.trap { cause := .loopRange, val := word n })
      else if n = 0 then .next (((set (lpsOf 0 (sc.toNat - 1) 0)).setPc (s.target15 o)).retire)
      else .next (((set (lpsOf (n - 1) (sc.toNat - 1) 1)).stepPc).retire)
    else
      let left := lpsLeft l
      let p := (lpsP l * 2 + (if left > 0 then 1 else 0)) % 2 ^ (lpsSm1 l + 1)
      let t := set (lpsOf (left - 1) (lpsSm1 l) p)
      .next ((if p = 0 then t.setPc (s.target15 o) else t.stepPc).retire)

end Sys2Proof.Machine
end

