-- ==== Sys2Proof/Machine/Flags.lean ====
section
/-! DEFINITION. FCSR: the sticky flags, the rounding mode and the DAZ and FTZ bits (R54, R69, R74). -/

namespace Sys2Proof.Machine

/-- NX, UF, OF, DZ, NV and SAT of FCSR (R54). -/
def nx : Nat := 1
def uf : Nat := 2
def of_ : Nat := 4
def dz : Nat := 8
def nv : Nat := 16
def sat : Nat := 32

/-- How a result is formed: the rounding mode 0 to 5 of R69, DAZ and FTZ, and the random value of SR (R72). -/
structure FpEnv where
  rm : Nat
  daz : Bool
  ftz : Bool
  rnd : Nat
  deriving DecidableEq, Repr

/-- A result with the flags it raises. -/
abbrev Flagged := Nat × Nat

/-- FCSR.RM (R54). -/
def fcsrRm (w : Word) : Nat := bits w.toNat 14 12

/-- The mode of a rounding code when SR is not eligible: code 7 takes RM, and 5 rounds RNE (R69, R166). -/
def roundMode (code fromFcsr : Nat) : Nat :=
  let r := if code = 7 then fromFcsr else code
  if r = 5 then 0 else r

/-- The mode of a rounding code where SR is eligible (R69). -/
def roundModeSr (code fromFcsr : Nat) : Nat := if code = 7 then fromFcsr else code

/-- The environment of a mode under the FCSR in view (R75). -/
def State.fpEnv (s : State) (rm : Nat) : FpEnv :=
  { rm := rm, daz := s.hart.ctx.fcsr.getLsbD 9, ftz := s.hart.ctx.fcsr.getLsbD 8, rnd := 0 }

/-- OR flags into FCSR (R74). -/
def State.raise (s : State) (flags : Nat) : State :=
  s.setCtx { s.hart.ctx with fcsr := s.hart.ctx.fcsr ||| word (flags % 64) }

/-- FCSR after a write of a value (R4, R54): RM keeps its old value when 6 or 7 is written. -/
def fcsrWrite (old v : Word) : Word :=
  let rm := if fcsrRm v ≤ 5 then fcsrRm v else fcsrRm old
  word (rm * 2 ^ 12) ||| (v &&& 0x33F)

end Sys2Proof.Machine
end

