-- ==== Sys2Proof/Machine/Float.lean ====
section
/-! DEFINITION. Floating-point arithmetic from exact values with one rounding (R65 to R79): values, RoundToFormat, the
operations, the correctly rounded functions and the conversions. -/

namespace Sys2Proof.Machine

/-! ### Formats and values -/

/-- Fraction bits p of a floating-point format (R65). -/
def fracBits : EType → Nat
  | .f64 => 52 | .f32 => 23 | .f16 => 10 | .bf16 => 7 | .e5m2 => 2 | .e4m3 => 3 | .e2m1 => 1 | _ => 0

/-- Exponent bias (R65). -/
def expBias : EType → Nat
  | .f64 => 1023 | .f32 => 127 | .f16 => 15 | .bf16 => 127 | .e5m2 => 15 | .e4m3 => 7 | .e2m1 => 1 | _ => 0

/-- Formats with infinities (R65). -/
def hasInf : EType → Bool
  | .f64 | .f32 | .f16 | .bf16 | .e5m2 => true
  | _ => false

/-- The bits below the sign: exponent and fraction. -/
def magBits (t : EType) : Nat := etypeBits t - 1

/-- The exponent and fraction field of the largest finite value (R65). -/
def maxMag (t : EType) : Nat :=
  match t with
  | .e4m3 => 0x7E
  | .e2m1 => 0x7
  | t => 2 ^ magBits t - 2 ^ fracBits t - 1

/-- The exponent and fraction field of infinity. -/
def infMag (t : EType) : Nat := 2 ^ magBits t - 2 ^ fracBits t

/-- The canonical NaN (R67). A format without NaN has none; 0 stands there (R76). -/
def canonNan : EType → Nat
  | .f64 => 0x7FF8000000000000 | .f32 => 0x7FC00000 | .f16 => 0x7E00 | .bf16 => 0x7FC0 | .e5m2 => 0x7E | .e4m3 => 0x7F
  | _ => 0

/-- A floating-point value: a NaN, an infinity, or (-1)^neg * m * 2^e. -/
inductive FVal where
  | nan (signalling : Bool)
  | inf (neg : Bool)
  | fin (neg : Bool) (m : Nat) (e : Int)
  deriving DecidableEq, Repr

/-- A pattern with its sign. -/
def withSign (t : EType) (neg : Bool) (mag : Nat) : Nat := flag neg * 2 ^ magBits t + mag

/-- A subnormal pattern of a 64-, 32- or 16-bit format reads as a zero of its sign under DAZ (R75). -/
def dazBits (t : EType) (daz : Bool) (x : Nat) : Nat :=
  if daz && classF t && x / 2 ^ fracBits t % 2 ^ (magBits t - fracBits t) == 0 then x / 2 ^ magBits t % 2 * 2 ^ magBits t
  else x % 2 ^ etypeBits t

/-- The value of a pattern (R65). -/
def fdecode (t : EType) (x : Nat) : FVal :=
  let p := fracBits t
  let neg := bit x (magBits t)
  let mag := x % 2 ^ magBits t
  let f := mag % 2 ^ p
  let e := mag / 2 ^ p
  if hasInf t && e == 2 ^ (magBits t - p) - 1 then
    if f = 0 then .inf neg else .nan (classF t && !bit f (p - 1))
  else if t == .e4m3 && mag == 0x7F then .nan false
  else if e = 0 then .fin neg f (1 - expBias t - p)
  else .fin neg (2 ^ p + f) ((e : Int) - expBias t - p)

/-- The value of an operand, with DAZ (R75). -/
def fread (t : EType) (daz : Bool) (x : Nat) : FVal := fdecode t (dazBits t daz x)

/-! ### RoundToFormat -/

/-- Whether the choice between the neighbours q and q + 1 takes q + 1 (R70 step 2): the value is q + (r + θ) / 2^d with
0 ≤ θ < 1, and θ > 0 exactly under `sticky`. -/
def roundsUp (rm : Nat) (neg : Bool) (q r d : Nat) (sticky : Bool) (rnd : Nat) : Bool :=
  let half := 2 ^ d / 2
  match rm with
  | 1 => false
  | 2 => neg
  | 3 => !neg
  | 4 => decide (half ≤ r)
  | 5 => decide (rnd < r * 2 ^ 32 / 2 ^ d)
  | _ => decide (half < r) || (r == half && (sticky || q % 2 == 1))

/-- The overflow results of R70. DESIGN CHOICE (log entry 107): a saturating conversion to .bf16 or .f16, for which the table has no row, gives
the result of the others. -/
def overflowed (t : EType) (satur : Bool) (rm : Nat) (neg : Bool) : Flagged :=
  if satur && (t == .e5m2 || t == .e4m3) || t == .e2m1 then (withSign t neg (maxMag t), sat + nx)
  else if t == .e4m3 then (canonNan t, of_ + nx)
  else
    let toInf := match rm with
      | 1 => false
      | 2 => neg
      | 3 => !neg
      | _ => true
    (withSign t neg (if toInf then infMag t else maxMag t), of_ + nx)

/-- RoundToFormat of a non-zero magnitude (m + θ) * 2^e (R70 to R72, R75): θ > 0 exactly under `sticky`, and then m has more
bits than the format. `keep` is the exact widening that FTZ does not flush. -/
def roundTo (t : EType) (v : FpEnv) (satur keep : Bool) (neg : Bool) (m : Nat) (e : Int) (sticky : Bool) : Flagged :=
  let p := fracBits t
  let low : Int := 1 - expBias t - p
  let u := max low (Nat.log2 m + e - p)
  let d := (u - e).toNat
  let q := if u ≤ e then m * 2 ^ (e - u).toNat else m / 2 ^ d
  let r := if u ≤ e then 0 else m % 2 ^ d
  let inexact := r != 0 || sticky
  let code := fun (k : Nat) => (u - low).toNat * 2 ^ p + k
  let big := decide (maxMag t < code q) || (code q == maxMag t && inexact)
  let rm := if v.rm = 5 && big then 0 else v.rm
  let q := if inexact && roundsUp rm neg q r d sticky v.rnd then q + 1 else q
  let c := code q
  if c > maxMag t then overflowed t satur rm neg
  else
    let tiny := c != 0 && decide (c < 2 ^ p)
    if tiny && v.ftz && classF t && !keep then (withSign t neg 0, uf + nx)
    else (withSign t neg c, if inexact then nx + (if tiny then uf else 0) else 0)

/-- The pattern of an exact value m * 2^e, a zero taking the sign given (R70). -/
def roundFin (t : EType) (v : FpEnv) (satur keep : Bool) (neg : Bool) (m : Nat) (e : Int) : Flagged :=
  if m = 0 then (withSign t neg 0, 0) else roundTo t v satur keep neg m e false

/-- A value that no rounding touches but by the special rules: NaN and infinity keep their kind (R67, R70). -/
def roundVal (t : EType) (v : FpEnv) (satur keep : Bool) (x : FVal) : Flagged :=
  match x with
  | .nan s => (canonNan t, if s then nv else 0)
  | .inf neg => (withSign t neg (infMag t), 0)
  | .fin neg m e => roundFin t v satur keep neg m e

/-! ### The operations -/

/-- A value is a signalling NaN. -/
def FVal.signals : FVal → Bool
  | .nan s => s
  | _ => false

/-- A value is a NaN. -/
def FVal.isNan : FVal → Bool
  | .nan _ => true
  | _ => false

/-- The opposite value. -/
def FVal.neg : FVal → FVal
  | .nan s => .nan s
  | .inf n => .inf !n
  | .fin n m e => .fin (!n) m e

/-- A finite value as an integer multiple of 2^e for an e no greater than its own. -/
def scaled (neg : Bool) (m : Nat) (e lo : Int) : Int :=
  let k : Int := (m * 2 ^ (e - lo).toNat : Nat)
  if neg then -k else k

/-- The NaN result of an invalid operation (R67, R74). -/
def invalid (t : EType) : Flagged := (canonNan t, nv)

/-- A NaN operand's result: the canonical NaN, NV if one signals (R67). -/
def nanOf (t : EType) (xs : List FVal) : Flagged := (canonNan t, if xs.any FVal.signals then nv else 0)

/-- The exact product; a zero times an infinity has none (R74). -/
def fprod (a b : FVal) : Option FVal :=
  match a, b with
  | .fin n m e, .fin n2 m2 e2 => some (.fin (n != n2) (m * m2) (e + e2))
  | .inf n, .inf n2 => some (.inf (n != n2))
  | .inf n, .fin n2 m _ | .fin n2 m _, .inf n => if m = 0 then none else some (.inf (n != n2))
  | _, _ => some (.nan false)

/-- RoundToFormat(a + b) for values that are not NaN (R70). -/
def fsum (t : EType) (v : FpEnv) (a b : FVal) : Flagged :=
  match a, b with
  | .inf n, .inf n2 => if n = n2 then (withSign t n (infMag t), 0) else invalid t
  | .inf n, _ | _, .inf n => (withSign t n (infMag t), 0)
  | .fin n m e, .fin n2 m2 e2 =>
    let lo := min e e2
    let z := scaled n m e lo + scaled n2 m2 e2 lo
    if z = 0 then (withSign t (if n = n2 then n else v.rm == 2) 0, 0)
    else roundFin t v false false (decide (z < 0)) z.natAbs lo
  | _, _ => (canonNan t, 0)

/-- a + b (R190). -/
def fadd (t : EType) (v : FpEnv) (a b : FVal) : Flagged :=
  if a.isNan || b.isNan then nanOf t [a, b] else fsum t v a b

/-- a * b (R190). -/
def fmul (t : EType) (v : FpEnv) (a b : FVal) : Flagged :=
  if a.isNan || b.isNan then nanOf t [a, b]
  else match fprod a b with
    | none => invalid t
    | some x => roundVal t v false false x

/-- a * b + c with one rounding (R170, R190): 0 * infinity is invalid even with a quiet NaN c. -/
def ffma (t : EType) (v : FpEnv) (a b c : FVal) : Flagged :=
  if a.isNan || b.isNan then nanOf t [a, b, c]
  else match fprod a b with
    | none => invalid t
    | some x => if c.isNan then nanOf t [c] else fsum t v x c

/-- a / b (R77). -/
def fdiv (t : EType) (v : FpEnv) (a b : FVal) : Flagged :=
  match a, b with
  | .fin n m e, .fin n2 m2 e2 =>
    let neg := n != n2
    if m2 = 0 then (if m = 0 then invalid t else (withSign t neg (infMag t), dz))
    else if m = 0 then (withSign t neg 0, 0)
    else
      let k := fracBits t + 4 + Nat.log2 m2
      let q := m * 2 ^ k / m2
      roundTo t v false false neg q (e - e2 - k) (m * 2 ^ k % m2 != 0)
  | .inf _, .inf _ => invalid t
  | .inf n, .fin n2 _ _ => (withSign t (n != n2) (infMag t), 0)
  | .fin n _ _, .inf n2 => (withSign t (n != n2) 0, 0)
  | a, b => nanOf t [a, b]

/-- The integer square root by bits: `k` bits from the top, `r` found so far. -/
def isqrtFrom (n : Nat) : Nat → Nat → Nat
  | 0, r => r
  | k + 1, r => isqrtFrom n k (if (r + 2 ^ k) * (r + 2 ^ k) ≤ n then r + 2 ^ k else r)

/-- The integer square root. -/
def isqrt (n : Nat) : Nat := isqrtFrom n (Nat.log2 n / 2 + 1) 0

/-- The square root (R77). -/
def fsqrt (t : EType) (v : FpEnv) (a : FVal) : Flagged :=
  match a with
  | .nan s => nanOf t [.nan s]
  | .inf n => if n then invalid t else (withSign t false (infMag t), 0)
  | .fin n m e =>
    if m = 0 then (withSign t n 0, 0)
    else if n then invalid t
    else
      let k := 2 * (fracBits t + 4) + (e % 2).toNat
      let x := m * 2 ^ k
      let r := isqrt x
      roundTo t v false false false r ((e - k) / 2) (r * r != x)

/-- The reciprocal square root (R77). -/
def frsqrt (t : EType) (v : FpEnv) (a : FVal) : Flagged :=
  match a with
  | .nan s => nanOf t [.nan s]
  | .inf n => if n then invalid t else (withSign t false 0, 0)
  | .fin n m e =>
    if m = 0 then (withSign t n (infMag t) , dz)
    else if n then invalid t
    else
      let k := 2 * (fracBits t + 4) + 2 * Nat.log2 m + 2 + (e % 2).toNat
      let x := 2 ^ k / m
      let r := isqrt x
      roundTo t v false false false r (-((e + k) / 2)) (r * r * m != 2 ^ k)

/-- The reciprocal (R77). -/
def frcp (t : EType) (v : FpEnv) (a : FVal) : Flagged := fdiv t v (.fin false 1 0) a

/-! ### 2^x and log2 (R77): the exact value lies between m and m + 1 in the last place of a 256-bit fixed-point number
(log entry 11). -/

/-- floor(2^320 * ln 2). -/
def ln2Fixed : Nat := 0xB17217F7D1CF79ABC9E3B39803F2F6AF40F343267298B62D8A0D175B8BAAFA2BE7B876206DEBAC98

/-- Terms of the exponential series in 320-bit fixed point: y^i / i!. -/
def expTerms (y : Nat) : Nat → Nat → Nat → Nat
  | 0, _, _ => 0
  | n + 1, i, term => term + expTerms y n (i + 1) (term * y / 2 ^ 320 / i)

/-- floor(2^256 * 2^f) for the fraction f = x / 2^320, up to the series' last places. -/
def exp2Fixed (x : Nat) : Nat := expTerms (x * ln2Fixed / 2 ^ 320) 80 1 (2 ^ 320) / 2 ^ 64

/-- Odd terms of the series of artanh: z^(2i+1) / (2i+1). -/
def atanhTerms (z2 : Nat) : Nat → Nat → Nat → Nat
  | 0, _, _ => 0
  | n + 1, i, term => term / (2 * i + 1) + atanhTerms z2 n (i + 1) (term * z2 / 2 ^ 320)

/-- floor(2^256 * log2 y) for y = m / 2^k between 1 and 2, up to the series' last places. -/
def log2Fixed (m k : Nat) : Nat :=
  let z := (m - 2 ^ k) * 2 ^ 320 / (m + 2 ^ k)
  let ln := 2 * atanhTerms (z * z / 2 ^ 320) 110 0 z
  ln * 2 ^ 256 / ln2Fixed

/-- 2^x (R77). -/
def fexp2 (t : EType) (v : FpEnv) (a : FVal) : Flagged :=
  match a with
  | .nan s => nanOf t [.nan s]
  | .inf n => (if n then withSign t false 0 else withSign t false (infMag t), 0)
  | .fin neg m e =>
    let z := scaled neg m (max e (-320)) (min e 0)
    let unit : Nat := 2 ^ (-(min e 0)).toNat
    let n := z / (unit : Int)
    let f := (z % (unit : Int)).toNat
    let n := max (-2000) (min 2000 n)
    if f = 0 then roundTo t v false false false (2 ^ 64) (n - 64) false
    else roundTo t v false false false (exp2Fixed (f * 2 ^ 320 / unit)) (n - 256) true

/-- log2 x (R77). -/
def flog2 (t : EType) (v : FpEnv) (a : FVal) : Flagged :=
  match a with
  | .nan s => nanOf t [.nan s]
  | .inf n => if n then invalid t else (withSign t false (infMag t), 0)
  | .fin neg m e =>
    if m = 0 then (withSign t true (infMag t), dz)
    else if neg then invalid t
    else
      let k := Nat.log2 m
      let n : Int := e + k
      if m = 2 ^ k then
        if n = 0 then (0, 0) else roundTo t v false false (decide (n < 0)) (n.natAbs * 2 ^ 64) (-64) false
      else
        let z : Int := n * 2 ^ 256 + log2Fixed m k
        roundTo t v false false (decide (z < 0)) (if z < 0 then z.natAbs - 1 else z.natAbs) (-256) true

/-! ### Selection and comparison -/

/-- a < b for values that are not NaN; -0 equals +0. -/
def fless (a b : FVal) : Bool :=
  match a, b with
  | .inf n, .inf n2 => n && !n2
  | .inf n, _ => n
  | _, .inf n => !n
  | .fin n m e, .fin n2 m2 e2 => decide (scaled n m e (min e e2) < scaled n2 m2 e2 (min e e2))
  | _, _ => false

/-- The sign of a value. -/
def FVal.isNeg : FVal → Bool
  | .nan _ => false
  | .inf n => n
  | .fin n _ _ => n

/-- FMIN and FMAX (R167, R191) on patterns: -0 is below +0, one NaN yields the other operand. -/
def fselect (t : EType) (daz largest : Bool) (x y : Nat) : Flagged :=
  let x := dazBits t daz x
  let y := dazBits t daz y
  let a := fdecode t x
  let b := fdecode t y
  let f := if a.signals || b.signals then nv else 0
  if a.isNan && b.isNan then (canonNan t, f)
  else if a.isNan then (y, f)
  else if b.isNan then (x, f)
  else
    let below := fless a b || (!fless b a && a.isNeg && !b.isNeg)
    (if below != largest then x else y, f)

/-- The six conditions of R194, 0 eq to 5 ge, on values. -/
def fcompare (c : Nat) (a b : FVal) : Bool × Nat :=
  let sig := a.signals || b.signals
  if a.isNan || b.isNan then (c == 1, if sig || c ≥ 2 then nv else 0)
  else
    let lt := fless a b
    let gt := fless b a
    ((match c with
      | 0 => !lt && !gt
      | 1 => lt || gt
      | 2 => lt
      | 3 => !gt
      | 4 => gt
      | _ => !lt), 0)

/-- VABS and VNEG on class F (R191): the sign is cleared or inverted. -/
def fsign (t : EType) (daz negate : Bool) (x : Nat) : Flagged :=
  let x := dazBits t daz x
  match fdecode t x with
  | .nan s => (canonNan t, if s then nv else 0)
  | _ =>
    let mag := x % 2 ^ magBits t
    (if negate then withSign t (!bit x (magBits t)) mag else mag, 0)

/-! ### Conversions (R76) -/

/-- The destination holds every value of the source. -/
def widens (src dst : EType) : Bool :=
  match src with
  | .e2m1 => dst == .e4m3 || dst == .e5m2 || classF dst
  | .e4m3 | .e5m2 => classF dst
  | .f16 | .bf16 => dst == .f32 || dst == .f64
  | .f32 => dst == .f64
  | _ => false

/-- FP to FP from a value (R76): NaN and infinities by the table of the 8- and 4-bit destinations. -/
def fconvVal (dst : EType) (v : FpEnv) (satur keep : Bool) (x : FVal) : Flagged :=
  match x with
  | .nan s =>
    match dst with
    | .e2m1 => (0, nv)
    | _ => (canonNan dst, if s then nv else 0)
  | .inf neg =>
    match dst with
    | .e4m3 => if satur then (withSign dst neg (maxMag dst), sat + nx) else (canonNan dst, nv)
    | .e5m2 => if satur then (withSign dst neg (maxMag dst), sat + nx) else (withSign dst neg (infMag dst), 0)
    | .e2m1 => (withSign dst neg (maxMag dst), sat + nx)
    | _ => (withSign dst neg (infMag dst), 0)
  | .fin neg m e => roundFin dst v satur keep neg m e

/-- The least and the greatest value of a w-bit integer (R63). -/
def intLo (w : Nat) (signed : Bool) : Int := if signed then -(2 ^ (w - 1)) else 0
def intHi (w : Nat) (signed : Bool) : Int := if signed then 2 ^ (w - 1) - 1 else 2 ^ w - 1

/-- An integer pattern's value by its type's signedness (R63). -/
def intVal (w : Nat) (signed : Bool) (x : Nat) : Int := if signed then signedOf w x else ((x % 2 ^ w : Nat) : Int)

/-- A clamp to a type's range, with SAT when it clamps (R63). -/
def clamped (w : Nat) (signed : Bool) (z : Int) : Flagged :=
  if z < intLo w signed then (patternOf w (intLo w signed), sat)
  else if z > intHi w signed then (patternOf w (intHi w signed), sat)
  else (patternOf w z, 0)

/-- A floating-point value rounded to an integer of w bits (R76). -/
def toInt (w : Nat) (signed : Bool) (rm : Nat) (x : FVal) : Flagged :=
  let bound := fun neg => (patternOf w (if neg then intLo w signed else intHi w signed), nv)
  match x with
  | .nan _ => (0, nv)
  | .inf neg => bound neg
  | .fin neg m e =>
    if e > 64 ∧ m ≠ 0 then bound neg
    else
      let d := (-e).toNat
      let q := if e ≥ 0 then m * 2 ^ e.toNat else m / 2 ^ d
      let r := if e ≥ 0 then 0 else m % 2 ^ d
      let q := if r ≠ 0 ∧ roundsUp rm neg q r d false 0 then q + 1 else q
      let z : Int := if neg then -(q : Int) else q
      if z < intLo w signed ∨ z > intHi w signed then bound neg
      else (patternOf w z, if r ≠ 0 then nx else 0)

/-- An integer rounded to a floating-point format (R76). -/
def ofInteger (dst : EType) (v : FpEnv) (satur : Bool) (z : Int) : Flagged :=
  roundFin dst v satur false (decide (z < 0)) z.natAbs 0

/-- The conversion of a pattern (R76, R206). -/
def convert (src dst : EType) (v : FpEnv) (satur : Bool) (x : Nat) : Flagged :=
  if isFloat src then
    let a := fread src v.daz x
    if isFloat dst then fconvVal dst v satur (widens src dst) a
    else toInt (etypeBits dst) (isSigned dst) v.rm a
  else
    let z := intVal (etypeBits src) (isSigned src) x
    if isFloat dst then ofInteger dst v satur z
    else if satur then clamped (etypeBits dst) (isSigned dst) z
    else (patternOf (etypeBits dst) z, 0)

/-! ### Stochastic rounding -/

/-- The random value of R72 from SRSEED, ICNT and the element index. -/
def srRandom (seed n i : Nat) : Nat :=
  let m := 2 ^ 64
  let z := seed ^^^ (n * 0x9E3779B97F4A7C15 % m) ^^^ (i * 0xBF58476D1CE4E5B9 % m)
  let z := (z ^^^ z / 2 ^ 30) * 0xBF58476D1CE4E5B9 % m
  let z := (z ^^^ z / 2 ^ 27) * 0x94D049BB133111EB % m
  (z ^^^ z / 2 ^ 31) % 2 ^ 32

end Sys2Proof.Machine
end

