-- ==== Sys2Proof/Machine/Operands.lean ====
section
/-! DEFINITION. The operands of E-words: sizes, elements, masks, snapshots, the checks that depend on the state, poison, the
result of an E-word and its fault (R45 to R50, R142, R146, R147, R179, R185, R298, R299, R355, R360). -/

namespace Sys2Proof.Machine

/-! ### Sizes -/

/-- KC of the agent in view: LPART.KC, and 0 on a firmware core (R52, R324). -/
def State.kc (s : State) : Nat := match s.cid? with | some c => (s.core c).kc | none => 0

/-- Lanes of a hart, Lh (R12, R324). -/
def State.lanes (s : State) : Nat := if s.isFw then 2 else 32 / 2 ^ s.kc

/-- Bytes of a vector register, Vb (R46, R324). -/
def State.vbytes (s : State) : Nat := if s.isFw then 64 else Config.vectorBytes / (regCount s.hart.ctx.vn * 2 ^ s.kc)

/-- Bits of a mask, ML (R48, R324). -/
def State.ml (s : State) : Nat := 2 * s.vbytes

/-- MVL for elements of `w` bits (R46). -/
def State.mvl (s : State) (w : Nat) : Nat := s.vbytes * 8 / w

/-- Rows of a tile of the hart, MVLM (R50, R52). -/
def State.rows (s : State) : Nat := 64 / 2 ^ s.kc

/-! ### Elements -/

/-- Element i of w bits of an image. -/
def elem (x w i : Nat) : Nat := x / 2 ^ (w * i) % 2 ^ w

/-- The image that a list of w-bit elements spells, element 0 lowest. -/
def packElems (w : Nat) : List Nat → Nat
  | [] => 0
  | a :: r => a % 2 ^ w + 2 ^ w * packElems w r

/-- An image whose first elements are replaced. -/
def putElems (x w : Nat) (l : List Nat) : Nat := packElems w l + x / 2 ^ (w * l.length) * 2 ^ (w * l.length)

/-- A vector register's image. -/
def Ctx.vreg (c : Ctx) (r : BitVec 6) : Nat := c.v[r.toNat]'(r.isLt)

/-- A mask register's bits; masks are k0 to k7 (R48). -/
def Ctx.kreg (c : Ctx) (n : Nat) : Nat := if h : n < 8 then c.k[n] else 0

/-- A tile's image (R50). -/
def Ctx.treg (c : Ctx) (n : Nat) : Nat := if h : n < 4 then c.t[n] else 0

/-- Write a vector register. -/
def Ctx.setV (c : Ctx) (r : BitVec 6) (x : Nat) : Ctx := { c with v := c.v.set r.toNat x (r.isLt) }

/-- Write a mask register. -/
def Ctx.setK (c : Ctx) (n x : Nat) : Ctx := if h : n < 8 then { c with k := c.k.set n x } else c

/-- Write a tile. -/
def Ctx.setT (c : Ctx) (n x : Nat) : Ctx := if h : n < 4 then { c with t := c.t.set n x } else c

/-- Element i is active under the governing mask and polarity (R48). -/
def Ctx.active (c : Ctx) (w : EWord) (i : Nat) : Bool := w.k.toNat == 0 || bit (c.kreg w.k.toNat) i != w.pol

/-- The snapshot entry of an E-word under xs (R45, R146). -/
def Block.scalar (b : Block) (w : EWord) : Nat := (b.snap.getD (w.vb.toNat % 16) 0).toNat

/-- Operand b of an E-word: an element of vb, or the low bits of the snapshot entry (R146). -/
def Block.operandB (b : Block) (c : Ctx) (w : EWord) (width i : Nat) : Nat :=
  if w.xs then b.scalar w % 2 ^ width else elem (c.vreg w.vb) width i

/-- The active indices below VL (R185). -/
def Block.active (b : Block) (c : Ctx) (w : EWord) : List Nat := (List.range b.vl).filter (c.active w)

/-! ### Checks that depend on the state -/

/-- The element types whose MVL bounds VL (R179, R205); none for an E-word without a type. -/
def typesOf (i : Instr) (w : EWord) : List EType :=
  match i with
  | .vnop _ | .vstop _ | .kand _ | .kor _ | .kxor _ | .knot _ | .ksbf _ | .ksif _ | .ksof _ | .kpopc _ | .kfirst _
  | .vsqCommit _ | .vsqDrop _ | .mstart _ | .mstop _ | .mrot _ | .mzero _ => []
  | .vcvt _ | .vscale _ => [etypeOf w.ty, etypeOf (BitVec.ofNat 4 w.fn.toNat)]
  | .vldx _ | .vstx _ => [etypeOf w.ty, if bit w.fn.toNat 6 then .i64 else .i32]
  | _ => [etypeOf w.ty]

/-- E-words a firmware core refuses (R323). -/
def fwRefuses (i : Instr) (w : EWord) : Bool :=
  match i with
  | .mstart _ | .mstop _ | .mzero _ | .opa _ | .ops _ | .opaSp _ | .mld _ | .mst _ | .mlatch _ | .mrot _ | .mmovV _ | .vmovM _
  | .mcvt _ | .vldg _ | .vstg _ => true
  | .vld _ | .vlds _ | .vldx _ | .vsts _ | .vstx _ => bit w.fn.toNat 8 || bit w.fn.toNat 7
  | _ => false

/-- The column limit C of a type (R229). -/
def colLimit (w : EWord) : Nat := if etypeOf w.ty = .f64 then 32 else 64

/-- K positions of a step for an operand type: the depth d (R78, R240). -/
def depthOf (t : EType) : Nat := match etypeBits t with | 16 => 2 | 8 => 4 | 4 => 8 | _ => 1

/-- The limits of R231, R235, R238 and R242 that a matrix E-word's VL and fields keep on a hart with `rows` = 64 / k. -/
def matrixLegal (rows vl : Nat) (i : Instr) (w : EWord) : Bool :=
  let fn := w.fn.toNat
  match i with
  | .mstart _ | .mstop _ | .mrot _ | .mzero _ | .mcvt _ => decide (vl ≤ 64)
  | .opa _ | .ops _ => decide (vl ≤ colLimit w) && decide (bits fn 8 3 < rows)
  | .opaSp _ => decide (vl ≤ 64) && decide (48 * (bits fn 8 3 + 1) ≤ rows * depthOf (etypeOf w.ty))
  | .mld _ | .mst _ | .mlatch _ => decide (vl ≤ colLimit w)
  | .mmovV _ | .vmovM _ =>
    decide (vl ≤ colLimit w) && (!bit fn 6 || decide (vl ≤ rows))
    && (w.xs || decide (bits fn 5 0 < if bit fn 6 then colLimit w else rows))
  | _ => true

/-- A register number of kind V is below N (R46). -/
def vOk (n : Nat) (k : FieldKind) (x : BitVec 6) : Bool := k != .V || decide (x.toNat < n)

/-- The state-dependent part of an E-word's legality (R46, R179, R323). -/
def State.eLegal (s : State) (b : Block) (i : Instr) (p : Shape) (w : EWord) : Bool :=
  let n := regCount s.hart.ctx.vn
  vOk n p.vd w.vd && vOk n p.va w.va && (w.xs || vOk n p.vb w.vb) && vOk n p.vc w.vc
  && (typesOf i w).all (fun t => decide (b.vl ≤ s.mvl (etypeBits t)))
  && !(s.isFw && fwRefuses i w)
  && matrixLegal s.rows b.vl i w

/-! ### Poison of registers (R360) -/

/-- Whether the word of a register that holds an element is poisoned. -/
def Ctx.poisoned (c : Ctx) (kind num width i : Nat) : Bool :=
  c.poison.contains { kind := kind, num := num, word := width * i / 64 }

/-- A register operand: its kind, number and element width. -/
abbrev Src := Nat × Nat × Nat

/-- POISON for the lowest active element with a poisoned source word (R360). -/
def Ctx.poisonRead (c : Ctx) (srcs : List Src) (els : List Nat) : Except Stop Unit :=
  if c.poison.isEmpty then .ok ()
  else
    match els.findSome? fun i => (srcs.find? fun r => c.poisoned r.1 r.2.1 r.2.2 i).map fun r => (i, r) with
    | none => .ok ()
    | some (i, r) =>
      .error (.trap { cause := .poison, val := word (0xFF * 2 ^ 56 + r.1 * 2 ^ 48 + r.2.1), val2 := word i })

/-- The governing mask as a source. -/
def maskSrc (w : EWord) : List Src := if w.k.toNat = 0 then [] else [(1, w.k.toNat, 1)]

/-- Operand b as a source. -/
def bSrc (w : EWord) (width : Nat) : List Src := if w.xs then [] else [(0, w.vb.toNat, width)]

/-- The poison of a register's words after an E-word wrote the listed elements, each clean or poisoned: a word keeps its
poison unless every element of it was written clean (R360). -/
def Ctx.repoison (c : Ctx) (kind num width : Nat) (els : List (Nat × Bool)) : Ctx :=
  if c.poison.isEmpty && els.all (fun e => !e.2) then c
  else
    let per := max 1 (64 / width)
    let words := ((els.map fun e => e.1 * width / 64).dedup)
    words.foldl (fun c k =>
      let mine := els.filter fun e => e.1 * width / 64 == k
      let r : RegWord := { kind := kind, num := num, word := k }
      if mine.any (·.2) then { c with poison := if c.poison.contains r then c.poison else c.poison ++ [r] }
      else if mine.length = per then { c with poison := c.poison.filter (· != r) }
      else c) c

/-! ### The result of an E-word -/

/-- A checked group of an E-word (R355, R357): its lane, the register words it writes and its flags. -/
structure Group where
  lane : Nat
  words : List RegWord
  flags : Nat
  deriving DecidableEq, Repr

/-- What an E-word leaves: the registers written, its groups, the scratchpad bytes it leases, and whether VSTART returns
to 0 (R52, R355). Under `fault` the elements below VSTART took effect and the E-word faults (R214); under `stay` it has not
completed. -/
structure Done where
  state : State
  groups : List Group := []
  leases : List (Nat × Nat) := []
  clearV : Bool := true
  fault : Option Trap := none
  stay : Bool := false

/-- OR of flags. -/
def orFlags (l : List Nat) : Nat := l.foldl (· ||| ·) 0

/-- The 256-bit group of an element (R14). -/
def egroup (width i : Nat) : Nat := width * i / 256

/-- The lane of an element (R14, R15): groups of 256 bits go to the lanes in turn. -/
def State.laneOf (s : State) (width i : Nat) : Nat := egroup width i % s.lanes

/-- The groups of the listed elements, each element with its flags; `lane` and `words` say where a group lies (R355, R360). -/
def groupsOf (width : Nat) (lane : Nat → Nat) (words : Nat → List RegWord) (els : List (Nat × Nat)) : List Group :=
  ((els.map fun e => egroup width e.1).dedup).map fun g =>
    { lane := lane g, words := words g, flags := orFlags ((els.filter fun e => egroup width e.1 == g).map (·.2)) }

/-- The four words of a group of a register (R360). -/
def groupWords (kind num g : Nat) : List RegWord :=
  (List.range 4).map fun j => { kind := kind, num := num, word := 4 * g + j }

/-- Write the listed elements of vd, each with its value, flags and poison (R49): everything else keeps its value. -/
def State.writeV (s : State) (vd : BitVec 6) (width : Nat) (els : List (Nat × Nat × Nat × Bool)) : Done :=
  let x := s.hart.ctx.vreg vd
  let top := els.foldl (fun n e => max n (e.1 + 1)) 0
  let new := (List.range top).map fun i => match els.lookup i with
    | some e => e.1
    | none => elem x width i
  let c := (s.hart.ctx.setV vd (putElems x width new)).repoison 0 vd.toNat width (els.map fun e => (e.1, e.2.2.2))
  { state := s.setCtx c
    groups := groupsOf width (· % s.lanes) (groupWords 0 vd.toNat) (els.map fun e => (e.1, e.2.2.1)) }

/-- Write the listed bits of kd below VL and clear its tail (R49). `width` places the bits on the lanes. -/
def State.writeK (s : State) (kd vl width : Nat) (els : List (Nat × Nat × Nat)) : Done :=
  let x := s.hart.ctx.kreg kd
  let new := (List.range vl).map fun i => match els.lookup i with
    | some e => e.1
    | none => elem x 1 i
  let c := s.hart.ctx.setK kd (packElems 1 new)
  let written := (List.range s.ml).filter fun i => i ≥ vl || (els.lookup i).isSome
  let c := if c.poison.isEmpty then c else c.repoison 1 kd 1 (written.map fun i => (i, false))
  let words := fun g => ((List.range (256 / width)).map fun j =>
    ({ kind := 1, num := kd, word := (g * (256 / width) + j) / 64 } : RegWord)).dedup
  { state := s.setCtx c
    groups := groupsOf width (· % s.lanes) words (els.map fun e => (e.1, e.2.2)) }

/-- Write a scalar register from an E-word, clean or poisoned (R187, R360). -/
def State.writeX (s : State) (vd : BitVec 6) (lane : Nat) (v : Word) (bad : Bool := false) : Done :=
  let r : Reg := Fin.ofNat 32 vd.toNat
  { state := s.setCtx ((s.hart.ctx.put r v).mark r bad)
    groups := if r = 0 then [] else [{ lane := lane, words := [{ kind := 4, num := r.val, word := 0 }], flags := 0 }] }

/-! ### Faults and completion -/

/-- The E-word at hand has found a fault, which is taken once the groups of its elements below it have passed their checking point (R214,
R356) and the pending stores have committed (R225). -/
def State.holdFault (s : State) (t : Trap) : State :=
  s.onFocus fun h => { h with blocks := match h.blocks with | b :: r => { b with raise := some t } :: r | [] => [] }

/-- TAKE A FAULT AT AN E-WORD (R142, R214, R298, R299): an open strip restarts; otherwise the pending stores commit and the
blocks are suspended behind those suspended before. While a commit has to wait, the fault is held and the stores that can commit do (R225). -/
def State.ewordTrap (s : State) (b : Block) (t : Trap) (bad : Word) : Host.Outcome State Fault Refusal :=
  let at_ : TrapAt := { blk := true, widx := b.idx, sblka := b.addr, sword := bad }
  if t.cause = hostWait.cause ∧ t.sub = hostWait.sub then .next s else
  match s.hart.ctx.strip with
  | some k => .next ((s.onFocus Hart.restart).trapEntry t { at_ with strip := true, sepc := k.pc })
  | none =>
    match s.commitAll with
    | .error _ => .next (s.holdFault t).commitSome
    | .ok u =>
      let u := u.onFocus fun h =>
        { h with
          blocks := [],
          suspended := h.suspended ++ match h.blocks with
            | [] => []
            | b :: r => { b with vstart := h.ctx.vstart, raise := none } :: r }
      .next (u.trapEntry t { at_ with sepc := u.pc })

/-- The next word of the block: its word index moves on and a user-level E-word counts in ICNT (R72). -/
def State.nextWord (s : State) : State :=
  match s.hart.blocks with
  | [] => s
  | b :: r =>
    s.onFocus fun h =>
      { h with blocks := { b with idx := b.idx + 1 } :: r,
               ctx := { h.ctx with eCount := h.ctx.eCount + flag b.user } }

/-- The hart's core is under full checking (R355, R367). -/
def State.fullCheck (s : State) : Bool := match s.cid? with | some c => (s.core c).fullCheck | none => false

/-- The lanes on which an E-word is checked (R355, R359): lane ρ, or every lane under full checking or .sh. -/
def State.checkLanes (s : State) (sh : Bool) : List Nat :=
  if s.fullCheck || sh then List.range s.lanes else [s.hart.rho % s.lanes]

/-- ρ after a checked E-word (R355); under full checking it is not used. -/
def State.nextRho (s : State) (checked : Bool) : State :=
  s.onFocus fun h => { h with rho := if checked ∧ !s.fullCheck then (h.rho + 1) % s.lanes else h.rho }

/-- The flags of an E-word's groups are ORed into FCSR, and the groups to be checked wait for their checking point (R74, R355). -/
def State.checkGroups (s : State) (checked sh : Bool) (d : Done) : State :=
  let old := s.hart.ctx.fcsr.toNat % 64
  let ls := if checked then s.checkLanes sh else []
  let mine := d.groups.filter fun g => ls.contains g.lane && g.words != []
  let rest := orFlags ((d.groups.filter fun g => !mine.contains g).map (·.flags))
  let un := mine.map fun g =>
    ({ lane := g.lane, group := g.words, flags := g.flags, base := old ||| rest, leases := d.leases } : Unchecked)
  (d.state.raise (orFlags (d.groups.map (·.flags)))).onFocus fun h => { h with unchecked := h.unchecked ++ un }

/-- An E-word completes: its flags, its check, VSTART and the next word (R52, R74, R355). -/
def State.complete (s : State) (checked sh : Bool) (d : Done) : State :=
  let t := (s.checkGroups checked sh d).nextRho checked
  (t.onFocus fun h => { h with ctx := if d.clearV then { h.ctx with vstart := 0 } else h.ctx }).nextWord

/-- E-words that are not checked (R355). -/
def uncheckedKind (i : Instr) : Bool :=
  match i with
  | .vnop _ | .vstop _ | .vsqCommit _ | .vsqDrop _ | .vpref _ | .mstart _ | .mstop _ | .mrot _ => true
  | _ => false

/-- A copy that lands in a register an E-word names has not landed (R250). -/
def State.regBusy (s : State) (p : Shape) (w : EWord) : Bool :=
  s.regCopies.any fun c =>
    ((p.vd == .V && w.vd.toNat == c.p.vd) || (p.va == .V && w.va.toNat == c.p.vd)
        || (p.vb == .V && !w.xs && w.vb.toNat == c.p.vd) || (p.vc == .V && w.vc.toNat == c.p.vd))

/-- The snapshot entries that an E-word reads and does not transfer (R45, R146, R210): the scalar operand under xs but for a merge, a
broadcast or an insertion, and the base, endpoint and stride of a memory E-word. -/
def entriesRead (i : Instr) (w : EWord) : List Nat :=
  let fn := w.fn.toNat
  let b := if w.xs then [w.vb.toNat % 16] else []
  match i with
  | .vmerge _ | .vmergeF _ | .vbcast _ | .vins _ | .vpref _ => []
  | .vld _ | .vldff _ | .vst _ | .mld _ | .mst _ | .mlatch _ | .opa _ | .ops _ | .opaSp _ => bits fn 12 9 :: b
  | .vlds _ | .vldx _ | .vsts _ | .vstx _ => bits fn 12 9 :: (if bit fn 8 then bits fn 3 0 :: b else b)
  | .vldg _ | .vstg _ => bits fn 12 9 :: (if bit fn 8 then bits fn 3 0 :: b else b)
  | _ => b

/-- An E-word with an active element reads nothing and changes nothing (R230, R231): a matrix E-word that needs M with M = 0, which raises MATOFF,
and a windowed one with TL = 0. -/
def State.readsNothing (s : State) (b : Block) (i : Instr) : Bool :=
  let off := !s.hart.ctx.m
  match i with
  | .mrot _ | .mlatch _ | .mmovV _ | .vmovM _ => off
  | .mzero _ | .mcvt _ | .opa _ | .ops _ | .opaSp _ | .mld _ | .mst _ => off || b.tl == 0
  | _ => false

/-- POISON for a poisoned snapshot entry that an E-word reads (R360). -/
def Block.entryPoison (b : Block) (i : Instr) (w : EWord) : Option Trap :=
  ((entriesRead i w).find? b.bad.contains).map fun e =>
    { cause := .poison, val := word (0xFF * 2 ^ 56 + 4 * 2 ^ 48 + (16 + e)) }

/-- THE E-WORD AT HAND: it is the next word of the oldest block, after the checking point of the one before (R356); its
fields are checked, a false stage guard gives it no effect but that of ρ (R41, R147, R355), and it has its effect or its fault. Elements done below a fault pass their checking point before the trap (R214, R355, R356). -/
def State.eword (s : State) (i : Instr) (f : Block → EWord → Except Stop Done) : Host.Outcome State Fault Refusal :=
  match s.hart.blocks, shapeOf i with
  | b :: _, some (p, w) =>
    let bad := b.words.getD b.idx 0
    if s.hart.unchecked ≠ [] ∨ s.regBusy p w then .next s
    else if let some t := b.raise then s.ewordTrap b t bad
    else if !shapeOk p w || !s.eLegal b i p w then s.ewordTrap b { cause := .illegal } bad
    else if w.sg.toNat ≠ 0 ∧ !bit b.p (w.sg.toNat - 1) then .next (s.nextRho (!uncheckedKind i)).nextWord
    else
      match if (b.active s.hart.ctx w).isEmpty || s.readsNothing b i then f b w else match b.entryPoison i w with | some t => .error (.trap t) | none => f b w with
      | .ok d =>
        match d.fault with
        | some t =>
          let u := s.checkGroups (!uncheckedKind i) w.sh d
          if u.hart.unchecked.isEmpty then u.ewordTrap b t bad else .next (u.holdFault t)
        | none => if d.stay then .next d.state else .next (s.complete (!uncheckedKind i) w.sh d)
      | .error .wait => .next s
      | .error (.trap t) => s.ewordTrap b t bad
  | _, _ => s.illegal 0

/-- The floating-point environment of an E-word that rounds without SR (R69, R183). -/
def State.eEnv (s : State) (b : Block) (w : EWord) : FpEnv := s.fpEnv (roundMode w.rm.toNat b.rm)

/-- The environment of element i of an E-word for which SR is eligible (R69, R72). -/
def State.eEnvSr (s : State) (b : Block) (w : EWord) (i : Nat) : FpEnv :=
  let rm := roundModeSr w.rm.toNat b.rm
  { s.fpEnv rm with
    rnd := if rm = 5 then srRandom s.hart.ctx.srseed.toNat ((b.sCount + s.hart.ctx.eCount) % 2 ^ 64) i else 0 }

end Sys2Proof.Machine
end

