-- ==== Sys2Proof/Machine/LoadStore.lean ====
section
/-! DEFINITION. Scalar loads and stores and the memory accesses of the agent in view: checks in the order of R165, tier pages
(R97, R99), pending stores read back (R109), poison (R360). -/

namespace Sys2Proof.Machine

/-- The pending value of a byte, if a pending store of the agent in view covers it; the last one counts (R109). -/
def pendingByte (ps : List Pend) (l : Loc) (old : Byte) : Byte :=
  ps.foldl (fun b p => p.bytes.foldl (fun b e =>
    if e.1 = l then BitVec.ofNat 8 ((b.toNat &&& (255 - e.2.2)) ||| (e.2.1 &&& e.2.2)) else b) b) old

/-- A pending element of a remote store to the device's own EID, by the places it will write (R82, R109). -/
def State.loopPend (s : State) (p : Pend) : Pend :=
  match p.remote with
  | some (ep, v) =>
    if ep ≠ s.fabric.eid then p
    else
      let n := 2 ^ v.esz
      let rank := ((List.range p.idx).filter fun i => v.act.getD i false).length
      { p with bytes := ((List.range n).zip (bytesOf n (v.data.getD rank 0))).filterMap fun b =>
          (s.loopPlace true (p.addr.toNat + b.1)).map fun l => (l, b.2.toNat, 255) }
  | none => p

/-- The pending stores of the agent in view, with the places of those that loop back. -/
def State.ownPend (s : State) : List Pend := s.hart.pend.map s.loopPend

/-- A byte as the agent in view reads it (R109). -/
def State.seen (s : State) (l : Loc) : Byte := pendingByte s.ownPend l (s.byteAt l)

/-- The poison of a byte over which some pending stores lie (R109, R360). -/
def pendingBad (ps : List Pend) (l : Loc) (old : Bool) : Bool :=
  ps.foldl (fun bad p => p.bytes.foldl (fun bad e =>
    if e.1 = l then (if e.2.2 = 255 then p.poisoned else bad || p.poisoned) else bad) bad) old

/-- A byte that the agent in view reads is poisoned: the last pending store that gives it is, else its memory word (R109, R360). -/
def State.seenBad (s : State) (l : Loc) : Bool := pendingBad s.ownPend l (s.poisonAt l)

/-- An access waits for the coroutine's own stores to its bytes that are committed and loop back (R105, R106). -/
def State.afterLoops (s : State) (ls : List Loc) : Except Trap Unit := if s.loopAhead ls then .error hostWait else .ok ()

/-- A load or store to tier pages is served in host memory with a notice under TIERNOTE.EN, and faults otherwise
(R97); it waits while no host port serves it (R387). -/
def State.tierUse (s : State) (p : Spot) (va : Nat) : Except Trap State :=
  if p.tiers.isEmpty then .ok s
  else if s.hart.ctx.tiernote then (if s.tierUp then .ok (p.tiers.foldl State.notice s) else .error hostWait)
  else .error { cause := .tierAccess, val := word va }

/-- POISON for the first poisoned word among places read from address `va` on, as the agent in view reads them (R360). -/
def State.poisonCheck (s : State) (ls : List Loc) (va : Nat) : Except Trap Unit :=
  match (List.range ls.length).find? fun i => match ls[i]? with
      | some l => s.seenBad l
      | none => false with
  | some i => .error { cause := .poison, val := word ((va + i) / 8 * 8) }
  | none => .ok ()

/-- A scalar load of `n` bytes of the agent in view (R165): the state after its notices, and the value. -/
def State.loadNum (s : State) (va n align : Nat) : Except Trap (State × Nat) := do
  let p ← s.locate s.view va n align false
  let _ ← s.afterLoops p.locs
  let t ← s.tierUse p va
  let _ ← s.poisonCheck p.locs va
  pure (t, ofBytes (p.locs.map s.seen))

/-- A scalar store of `n` bytes of the agent in view, with its strip closed (R165); a poisoned value leaves its words poisoned
(R360). -/
def State.storeNum (s : State) (va n v : Nat) (bad : Bool) : Except Stop State := do
  let p ← lift (s.locate s.view va n 1 true)
  let _ ← lift (s.afterLoops p.locs)
  let t ← lift (s.tierUse p va)
  let u ← t.perform (p.locs.zip (bytesOf n v))
  pure (if bad then (p.locs.map Loc.word).dedup.foldl (fun t l => t.putPoison l true) u else u)

/-- The address of a scalar access (R165). -/
def State.addr15 (s : State) (a : Reg) (i : BitVec 15) : Nat := (s.x a + i.signExtend 64).toNat

/-- A scalar load into xd; `signed` extends by sign (R165). -/
def State.loadInto (s : State) (d a : Reg) (i : BitVec 15) (n : Nat) (signed : Bool) : Host.Outcome State Fault Refusal :=
  s.sword fun s => do
    let _ ← lift (s.regClean [a])
    let (t, v) ← lift (s.loadNum (s.addr15 a i) n 1)
    pure (t.result d (if signed then BitVec.ofInt 64 (signedOf (8 * n) v) else word v))

/-- A scalar store of xd (R165): it closes an open strip first (R39). -/
def State.storeFrom (s : State) (d a : Reg) (i : BitVec 15) (n : Nat) : Host.Outcome State Fault Refusal :=
  s.closing fun s => do
    let _ ← lift (s.regClean [a])
    let t ← s.storeNum (s.addr15 a i) n ((s.x d).toNat % 256 ^ n) (s.hart.ctx.xBad d)
    pure t.stepPc.retire

/-- LD.b (R165): one byte, sign-extended. -/
def execLdB (d a : Reg) (i : BitVec 15) (s : State) : Host.Outcome State Fault Refusal := s.loadInto d a i 1 true
/-- LD.bn (R165): one byte, zero-extended. -/
def execLdBn (d a : Reg) (i : BitVec 15) (s : State) : Host.Outcome State Fault Refusal := s.loadInto d a i 1 false
/-- LD.h (R165): two bytes, sign-extended. -/
def execLdH (d a : Reg) (i : BitVec 15) (s : State) : Host.Outcome State Fault Refusal := s.loadInto d a i 2 true
/-- LD.hn (R165): two bytes, zero-extended. -/
def execLdHn (d a : Reg) (i : BitVec 15) (s : State) : Host.Outcome State Fault Refusal := s.loadInto d a i 2 false
/-- LD.w (R165): four bytes, sign-extended. -/
def execLdW (d a : Reg) (i : BitVec 15) (s : State) : Host.Outcome State Fault Refusal := s.loadInto d a i 4 true
/-- LD.wn (R165): four bytes, zero-extended. -/
def execLdWn (d a : Reg) (i : BitVec 15) (s : State) : Host.Outcome State Fault Refusal := s.loadInto d a i 4 false
/-- LD.d (R165): eight bytes. -/
def execLdD (d a : Reg) (i : BitVec 15) (s : State) : Host.Outcome State Fault Refusal := s.loadInto d a i 8 false
/-- ST.b (R165): one byte. -/
def execStB (d a : Reg) (i : BitVec 15) (s : State) : Host.Outcome State Fault Refusal := s.storeFrom d a i 1
/-- ST.h (R165): two bytes. -/
def execStH (d a : Reg) (i : BitVec 15) (s : State) : Host.Outcome State Fault Refusal := s.storeFrom d a i 2
/-- ST.w (R165): four bytes. -/
def execStW (d a : Reg) (i : BitVec 15) (s : State) : Host.Outcome State Fault Refusal := s.storeFrom d a i 4
/-- ST.d (R165): eight bytes. -/
def execStD (d a : Reg) (i : BitVec 15) (s : State) : Host.Outcome State Fault Refusal := s.storeFrom d a i 8

end Sys2Proof.Machine
end

