-- ==== Sys2Proof/Machine/Sync.lean ====
section
/-! DEFINITION. Waiting and synchronising S-words: tokens, sync words, full/empty words, atomics, remote atomics and fences
(R86 to R91, R112, R113, R117, R119, R244, R245, R252 to R259). -/

namespace Sys2Proof.Machine

/-! ### Shared parts -/

/-- An S-word as a number, for SWORD (R293). -/
def swordBits (i : Instr) : Word := word ((encodeS i).getD 0)

/-- An instruction that acts for a coroutine raises ILLEGAL on an idle hart, and, under `fwToo`, on a firmware core
(R291, R323). -/
def State.acting (s : State) (i : Instr) (fwToo : Bool) (k : Host.Outcome State Fault Refusal) :
    Host.Outcome State Fault Refusal :=
  if (s.isFw && fwToo) || (!s.isFw && s.hart.occ.isNone) then s.illegal (swordBits i) else k

/-- A remote store of a coroutine is queued or not acknowledged (R225), or a message of it, which is a store too (R118), is on its way or kept. -/
def State.storesFor (s : State) (cid : Nat) (own : Nat × Nat) : Bool :=
  ((s.core cid).outq.any fun q => (q.gid, q.coid) == own)
  || (s.fabric.sent.any fun r => r.cid == cid && match r.cont with | .store _ g n _ | .msg _ g n => (g, n) == own | _ => false)
  || s.fabric.kept.any fun k => k.cid == cid && (k.gid, k.coid) == own

/-- A remote store or a message of the agent in view is not performed yet (R118, R225). -/
def State.storesOut (s : State) : Bool := s.storesFor s.cid s.own

/-- The combining buffer holds lines of the agent in view (R113). -/
def State.combined (s : State) : Bool := (s.core s.cid).comb.any (·.owner == s.own)

/-- Combining-buffer lines of the agent in view leave, as far as the queue has room; it waits where there is none (R113, R225). -/
def State.sendOwn (s : State) (which : CombLine → Bool) : Except Stop State :=
  let t := s.sendLines s.cid fun l => l.owner == s.own && which l
  if (t.core s.cid).outq.length = (s.core s.cid).outq.length then .error .wait else .ok (t.later (.remoteStoreSend s.cid))

/-- A store of the coroutine to those bytes of an endpoint is queued or not acknowledged (R225). -/
def State.storeInFlight (s : State) (ep : Nat) (as : List Nat) : Bool :=
  ((s.core s.cid).outq.any fun q => q.ep == ep && (q.gid, q.coid) == s.own && (opAddrs q.op).any as.contains)
  || s.fabric.sent.any fun r => r.ep == ep && r.cid == s.cid && (opAddrs r.op).any as.contains
      && (match r.cont with | .store _ g n _ => (g, n) == s.own | _ => false)

/-- The combining buffer holds lines of the agent in view for an endpoint (R113). -/
def State.combFor (s : State) (ep : Nat) : Bool := (s.core s.cid).comb.any fun l => l.isOf ep s.own

/-- A remote store of the agent in view to an endpoint is queued. -/
def State.outQueued (s : State) (ep : Nat) : Bool := (s.core s.cid).outq.any fun q => q.ep == ep && (q.gid, q.coid) == s.own

/-- A remote store of the agent in view to an endpoint is queued, or a message not performed: a later request to that endpoint follows it
(R114, R118). -/
def State.storeQueued (s : State) (ep : Nat) : Bool := s.outQueued ep || s.msgAhead s.cid s.own ep

/-- A message follows the agent's own stores to its endpoint (R106, R114): buffered and queued ones leave before it. -/
def State.behindStores (s : State) (ep : Nat) (k : State → Except Stop State) : Except Stop State :=
  if s.isFw then k s
  else if s.combFor ep then s.sendOwn (·.ep == ep)
  else if s.outQueued ep then .error .wait
  else k s

/-- A remote operation on `n` bytes of an endpoint follows the agent's own stores (R106, R113, R114): buffered and queued ones to the
endpoint leave before it, whatever slice they lie in (log entry 87), and those to its bytes are acknowledged, as are its messages there. -/
def State.behindOwn (s : State) (ep a n : Nat) (k : State → Except Stop State) : Except Stop State :=
  let as := (List.range n).map fun i => (a + i) % 2 ^ 64
  if s.isFw then k s
  else if s.combFor ep then s.sendOwn (·.ep == ep)
  else if s.storeInFlight ep as || s.storeQueued ep then .error .wait
  else k s

/-- The `n` bytes at an address of another endpoint lie in two regions (R84): paged memory and the remote windows of its cores. -/
def remoteStraddles (a n : Nat) : Bool := decide (regionOf 0 a ≠ regionOf 0 ((a + (n - 1)) % 2 ^ 64))

/-- A release (R110, R117, R119, R259): combining-buffer lines leave, and the S-word takes effect once every remote store
and message before it is acknowledged; local accesses are performed when they are made. -/
def State.released (s : State) (k : State → Except Stop State) : Except Stop State :=
  if s.isFw then k s
  else if s.combined then s.sendOwn fun _ => true
  else if s.storesOut then .error .wait
  else k s

/-- A request of `u` units to endpoint `ep` (R35): it draws them, or a coroutine is set aside awaiting the allowance, or a
hart at another level or a firmware core is held in place. -/
def State.drawn (s : State) (ep u : Nat) (k : State → Except Stop State) : Except Stop State :=
  let who : UnitOwner := match s.hart.occ with
    | some (g, n) => if s.canSwitch then .coro s.cid g n else .hart s.focus
    | none => .hart s.focus
  match s.draw who ep u with
  | some t => k t
  | none =>
    let t := s.queueFor who ep u
    if s.canSwitch then .ok (t.saveFull (.allowance ep u (s.groupOf ep)) false)
    else .ok (t.onFocus fun h => { h with run := .units ep u })

/-- Send a request whose answer the hart waits for (R121, R245). -/
def State.ask (s : State) (ep : Nat) (op : ReqOp) (cont : Cont) : State :=
  let rid := s.fabric.nextRid
  (s.send s.cid ep op cont).onFocus fun h => { h with run := .remote rid }

/-- A poisoned word of a sync word raises POISON at an instruction that reads it (R360). -/
def State.syncClean (s : State) (l : Loc) (n : Nat) (a : Word) : Except Trap Unit :=
  match (List.range n).find? fun i => s.poisonAt (l.plus (8 * i)) with
  | some i => .error { cause := .poison, val := a + word (8 * i) }
  | none => .ok ()

/-- The word of a token of this endpoint for an instruction of the agent in view: its faults (R253, R255, R399). -/
def State.tokenWord (s : State) (tok : Word) (write : Bool) : Except Trap Loc := do
  let v := s.view
  let l ← s.granSpot v.root v.user write (tokenGran tok)
  let _ ← s.afterLoops (l.run 16)
  let _ ← s.syncClean l 1 (granAddr (tokenGran tok))
  if s.syncV l then pure l else .error { cause := .syncUninit, val := tok }

/-! ### Waiting -/

/-- Register the core for the wake of a token's word (R91). -/
def State.register (s : State) (cid root : Nat) (user : Bool) (tok : Word) : State :=
  if tokenEp tok ≠ s.fabric.eid then s.send cid (tokenEp tok) (.register tok) (.register cid (tokenGran tok))
  else
    match s.granSpot root user false (tokenGran tok) with
    | .error _ => s
    | .ok l => s.addWaiter { gran := tokenGran tok, loc := l, who := .core cid }

/-- What the read of a token gave: signalled or not; none while the answer of another endpoint is missing. -/
def State.tokenRead (s : State) (tok : Word) (i : Nat) : Except Trap (Option Bool) :=
  if !granNames (tokenGran tok) then .error { cause := .addrHole, val := granAddr (tokenGran tok) }
  else if tokenEp tok ≠ s.fabric.eid then
    match s.fabric.awaits.find? fun r => r.1 == s.focus && r.2.1 == i with
    | none => .ok none
    | some r => if r.2.2.1 then .ok (some (signalledBy r.2.2.2 tok)) else .error { cause := .syncUninit, val := tok }
  else
    match s.tokenWord tok false with
    | .error t => .error t
    | .ok l => .ok (some (signalledBy (s.syncGen l) tok))

/-- AWAIT and AWAITANY (R28, R253, R254): read every token; complete with the lowest signalled one; otherwise save and
await, or wait in place at supervisor or firmware level (R291, R323; log entry 21); without a
switch no register changes (log entry 116). -/
def State.awaitTokens (s : State) (toks : List Word) (inbox : Bool) (list : Word) (d : Reg) (live : Word) (tiles : Bool) :
    Except Stop State := do
  let reads ← lift ((List.range toks.length).mapM fun i => s.tokenRead (toks.getD i 0) i)
  match (List.range reads.length).find? fun i => (reads.getD i none).isNone with
  | some i =>
    let t := toks.getD i 0
    s.behindOwn (tokenEp t) 0 0 fun s => .ok (s.ask (tokenEp t) (.syncRead t) (.await s.focus i))
  | none =>
    let s := s.forget
    let mark := s.hart.issued.getD (s.core s.cid).inboxSeen
    let clear := fun t : State => t.onFocus fun h => { h with issued := none, tokens := none }
    match (List.range reads.length).find? fun i => reads.getD i none == some true with
    | some i => pure (clear (s.result d (word i)))
    | none =>
      if inbox && decide (mark < (s.core s.cid).inboxSeen) then pure (clear (s.result d (word toks.length)))
      else if s.canSwitch then
        let w : WaitFor := if toks = [] then .inbox d.val else .token toks inbox list none [] d.val false
        let v := s.view
        let t := toks.foldl (fun t k => t.register s.cid v.root v.user k) s
        pure (t.save w false live.toNat tiles)
      else pure (s.onFocus fun h => { h with issued := some mark })

/-- AWAIT (R253). -/
def execAwait (k m : Reg) (g : Bool) (s : State) : Host.Outcome State Fault Refusal :=
  s.checked (.await k m g) <| s.acting (.await k m g) false <| s.closing fun s => do
    let _ ← lift (s.regClean [k, m])
    if s.regCopies ≠ [] then .error .wait else s.awaitTokens [s.x k] false (s.x k) 0 (s.x m) g

/-- The token list of AWAITANY (R254): n aligned 8-byte loads. DESIGN CHOICE (log entry 109): with n = 0 no alignment is asked. -/
def State.tokenList (s : State) (xl : Word) : Nat → Nat → Except Trap (State × List Word)
  | 0, _ => .ok (s, [])
  | n + 1, i => do
    let (t, v) ← s.loadNum (xl + word (8 * i)).toNat 8 8
    let (u, r) ← t.tokenList xl n (i + 1)
    pure (u, word v :: r)

/-- The inbox count at the issue of an AWAITANY, once it has closed its strip (R28, R254). -/
def State.issue (s : State) : State := s.onFocus fun h => { h with issued := some (h.issued.getD (s.core s.cid).inboxSeen) }

/-- The tokens of an AWAITANY: those its issue read, which stay while it waits in place (R254). -/
def State.issueTokens (s : State) (xl : Word) (n : Nat) : Except Trap (State × List Word) :=
  match s.hart.tokens with
  | some l => .ok (s, l)
  | none => (s.tokenList xl n 0).map fun r => (r.1.onFocus fun h => { h with tokens := some r.2 }, r.2)

/-- AWAITANY (R254): it issues with its list, then waits for register copies (R28) and for a token. -/
def execAwaitany (d l m : Reg) (n : BitVec 6) (i g : Bool) (s : State) : Host.Outcome State Fault Refusal :=
  s.checked (.awaitany d l m n i g) <| s.acting (.awaitany d l m n i g) false <| s.closing fun s => do
    let _ ← lift (s.regClean [l, m])
    let s := s.issue
    match s.issueTokens (s.x l) n.toNat with
    | .ok (t, toks) => if t.regCopies ≠ [] then .ok t else t.awaitTokens toks i (s.x l) d (s.x m) g
    | .error t => if t = hostWait then .ok s else .error (.trap t)

/-! ### Sync words -/

/-- The GRAN of an address in the self window or a gang window of a viewer (R90). -/
def Viewer.windowGran (v : Viewer) (va : Nat) : Option Nat :=
  let gran := fun c => Config.granSpad + c * 65536 + va % 0x100000 / 16
  match v.region va, v.cid with
  | .self, some cid => some (gran cid)
  | .gang g, some _ => (v.gang.bind fun k => k.cores[g]?).map gran
  | _, _ => none

/-- The place and the GRAN of a local sync-word address (R87, R90, R255): 16-byte aligned, in the self or a gang window or
in paged memory below the limit. `access` false is TKMAKE, which makes no access. -/
def State.syncSpot (s : State) (va : Nat) (access write : Bool) : Except Trap (Option Loc × Nat) :=
  if access && s.view.straddles va 16 then .error { cause := .windowStraddle, val := word va }
  else if va % 16 ≠ 0 then .error { cause := .misaligned, val := word va }
  else if va < 2 ^ 56 then
    if va ≥ Config.syncEnd then .error { cause := .addrHole, val := word va }
    else if !access then .ok (none, va / 16)
    else do
      let p ← s.locate s.view va 16 16 write
      let _ ← s.afterLoops p.locs
      let q ← p.noTier va
      pure (q.locs.head?, va / 16)
  else
    match s.view.windowGran va with
    | none => .error { cause := .addrHole, val := word va }
    | some g =>
      if !access then .ok (none, g)
      else do
        let p ← s.locate s.view va 16 16 write
        let _ ← s.afterLoops p.locs
        pure (p.locs.head?, g)

/-- SINIT (R255). -/
def execSinit (d a b : Reg) (s : State) : Host.Outcome State Fault Refusal :=
  s.checked (.sinit d a b) <| s.closing fun s => do
    let _ ← lift (s.regClean [a, b])
    let va := (s.x a).toNat
    let xb := (s.x b).toNat
    match ← lift (s.syncSpot va true true) with
    | (some l, g) =>
      let gen := bits xb 55 40
      let w := bytesOf 8 (2 ^ 63 + gen * 2 ^ 40) ++ bytesOf 8 (bits xb 39 0)
      let t ← s.perform ((l.run 16).zip w)
      pure ((t.wake l).result d (tokenOf s.fabric.eid g gen))
    | (none, _) => .error (.trap { cause := .addrHole, val := word va })

/-- EXPECT (R88, R255). -/
def execExpect (a b : Reg) (s : State) : Host.Outcome State Fault Refusal :=
  s.checked (.expect a b) <| s.closing fun s => do
    let _ ← lift (s.regClean [a, b])
    let va := (s.x a).toNat
    match ← lift (s.syncSpot va true true) with
    | (some l, _) =>
      let _ ← lift (s.syncClean l 2 (word va))
      let w1 := s.num (l.plus 8) 8
      let sum := bits w1 39 0 + (s.x b).toNat
      if !s.syncV l then .error (.trap { cause := .syncUninit, val := word va })
      else if sum ≥ 2 ^ 40 then .error (.trap { cause := .syncOverflow, val := word va, val2 := s.x b })
      else
        let t ← s.perform (((l.plus 8).run 8).zip (bytesOf 8 (bits w1 63 40 * 2 ^ 40 + sum)))
        pure t.stepPc.retire
    | (none, _) => .error (.trap { cause := .addrHole, val := word va })

/-- ARRIVE (R88, R117, R255): a release, and a contribution at the token's endpoint. -/
def execArrive (k b : Reg) (s : State) : Host.Outcome State Fault Refusal :=
  s.checked (.arrive k b) <| s.closing fun s => do
    let _ ← lift (s.regClean [k, b])
    let tok := s.x k
    let n := (s.x b).toNat
    if n ≥ 2 ^ 40 then .error (.trap { cause := .syncOverflow, val := granAddr (tokenGran tok), val2 := s.x b })
    else if !granNames (tokenGran tok) then .error (.trap { cause := .addrHole, val := granAddr (tokenGran tok) })
    else s.released fun s =>
      if tokenEp tok ≠ s.fabric.eid then
        s.drawn (tokenEp tok) 1 fun s => .ok (s.ask (tokenEp tok) (.contribute tok n) (.arrive s.focus))
      else do
        let l ← lift (s.tokenWord tok true)
        let _ ← lift (s.syncClean l 2 (granAddr (tokenGran tok)))
        if (l.run 16).any fun x => s.leased x || s.pinned x then .error .wait
        else pure (s.contributeAt l n).stepPc.retire

/-- SGEN (R255): the token with the word's present generation. -/
def execSgen (d k : Reg) (s : State) : Host.Outcome State Fault Refusal :=
  s.checked (.sgen d k) <| s.closing fun s => do
    let _ ← lift (s.regClean [k])
    let tok := s.x k
    if !granNames (tokenGran tok) then .error (.trap { cause := .addrHole, val := granAddr (tokenGran tok) })
    else if tokenEp tok ≠ s.fabric.eid then
      s.behindOwn (tokenEp tok) 0 0 fun s =>
        s.drawn (tokenEp tok) 1 fun s => .ok (s.ask (tokenEp tok) (.syncRead tok) (.sgen s.focus d.val tok))
    else do
      let l ← lift (s.tokenWord tok false)
      pure (s.result d (tokenOf (tokenEp tok) (tokenGran tok) (s.syncGen l)))

/-- TKMAKE (R255): the token of a local address, with no access. -/
def execTkmake (d a b : Reg) (s : State) : Host.Outcome State Fault Refusal :=
  s.checked (.tkmake d a b) <| s.closing fun s => do
    let (_, g) ← lift (s.syncSpot (s.x a).toNat false false)
    pure (s.result d (tokenOf s.fabric.eid g (bits (s.x b).toNat 15 0)) [a, b])

/-! ### Full/empty words (R86, R256) -/

/-- A full/empty operation of a hart in place completes (R291). -/
def Hart.feDone (h : Hart) (d : Nat) (v : Word) : Hart :=
  let c := (h.ctx.put (Fin.ofNat 32 d) v).mark (Fin.ofNat 32 d) false
  { h with run := .running, ctx := { c with pc := c.pc + 4, sCount := c.sCount + flag (h.level == .user) } }

/-- The completion of a held operation reaches its owner (R26, R86): a coroutine becomes ready behind its instruction. -/
def State.feDone (s : State) (who : FeOwner) (v : Word) : State :=
  match who with
  | .coro cid gid coid d =>
    let s := s.onSaved cid gid coid fun k =>
      let c := (k.put (Fin.ofNat 32 d) v).mark (Fin.ofNat 32 d) false
      { c with pc := c.pc + 4, sCount := c.sCount + 1 }
    (s.onCoro cid gid coid fun k => { k with wait := .ready }).ready cid gid coid
  | .hart a d => s.onHart a fun h => h.feDone d v
  | .remote sep scid rid => s.respond sep scid rid (.value v)

/-- A held LDFE that finds its word full and poisoned takes nothing: its instruction runs again and raises POISON (R360). -/
def State.feAgain (s : State) (who : FeOwner) : State :=
  match who with
  | .coro cid gid coid _ => (s.onCoro cid gid coid fun k => { k with wait := .ready }).ready cid gid coid
  | .hart a _ => s.onHart a fun h => { h with run := .running }
  | .remote sep scid rid => s.refuse sep scid rid

/-- The held operations that the word's bit now lets complete, the earliest first, one after another (R86). -/
def State.feSettle (s : State) (l : Loc) : Nat → State
  | 0 => s
  | n + 1 =>
    match s.feHeld.find? fun f => f.loc == l && f.stfe != s.fullAt l with
    | none => s
    | some f =>
      let s : State := { s with feHeld := s.feHeld.erase f }
      if !f.stfe && s.poisonAt l then (s.feAgain f.who).feSettle l n
      else
      let t := if f.stfe then (match s.perform ((l.run 8).zip (bytesOf 8 f.v.toNat)) with | .ok t => t | .error _ => s) else s
      let v := if f.stfe then 0 else word (s.num l 8)
      ((t.putFull l f.stfe).feDone f.who v).feSettle l n

/-- What a full/empty operation came to. -/
inductive FeResult where
  | done (s : State) (v : Word)
  | held (s : State)

/-- A full/empty operation at its home unit (R86, R256): op 0 LDFE, 1 STFE, 2 FESET, 3 FECLR. -/
def State.feAt (s : State) (l : Loc) (lines : List Nat) (op : Nat) (v : Word) (who : FeOwner) : Except Stop FeResult :=
  if (l.run 8).any fun x => s.leased x || s.pinned x then .error .wait
  else if (op = 0 ∧ !s.fullAt l) ∨ (op = 1 ∧ s.fullAt l) then
    .ok (.held { s with feHeld := s.feHeld ++ [{ loc := l, lines := lines, stfe := op == 1, v := v, who := who }] })
  else
    match op with
    | 0 => .ok (.done ((s.putFull l false).feSettle l s.feHeld.length) (word (s.num l 8)))
    | 1 => do
      let t ← s.perform ((l.run 8).zip (bytesOf 8 v.toNat))
      pure (.done ((t.putFull l true).feSettle l s.feHeld.length) 0)
    | 2 => .ok (.done ((s.putFull l true).feSettle l s.feHeld.length) 0)
    | _ => .ok (.done ((s.putFull l false).feSettle l s.feHeld.length) 0)

/-- A full/empty operation that the coroutine in view has at another endpoint's home unit since it was set aside (R86): woken by a trap
(R251), its instruction joins it again. -/
def State.feAsked (s : State) (ep : Nat) (op : ReqOp) : Bool :=
  s.canSwitch && s.fabric.sent.any fun r => r.ep == ep && r.op == op && match r.cont with
    | .feCoro c g n _ _ => c == s.cid && (g, n) == s.own
    | _ => false

/-- A full/empty S-word (R256): remote forms ask the endpoint; a held local one sets its coroutine aside, or holds its hart. -/
def State.fe (s : State) (op : Nat) (d a e : Reg) (remote : Bool) (v : Word) : Except Stop State :=
  let va := (s.x a).toNat
  if remote then
    if remoteStraddles va 8 then .error (.trap { cause := .windowStraddle, val := word va })
    else if va % 8 ≠ 0 then .error (.trap { cause := .misaligned, val := word va })
    else
      let ep := (s.x e).toNat % 8192
      if s.feAsked ep (.fe op (word va) v) then .ok (s.saveFull (.fe (op == 1) (word va)) false)
      else s.behindOwn ep va 8 fun s => s.drawn ep 1 fun s => .ok (s.ask ep (.fe op (word va) v) (.fe s.focus d.val (op == 0)))
  else do
    let p ← lift (s.locate s.view va 8 8 true)
    let p ← lift (p.noTier va)
    let _ ← lift (s.afterLoops p.locs)
    match p.locs with
    | l :: _ =>
      let _ ← if op = 0 ∧ s.fullAt l then lift (s.poisonCheck p.locs va) else pure ()
      let who : FeOwner := match s.hart.occ with
        | some (g, n) => if s.canSwitch then .coro s.cid g n d.val else .hart s.focus d.val
        | none => .hart s.focus d.val
      match ← s.feAt l p.lines op v who with
      | .done t x => pure (if op = 0 then t.result d x else t.stepPc.retire)
      | .held t =>
        if s.canSwitch then pure (t.saveFull (.fe (op == 1) (word va)) false)
        else pure (t.onFocus fun h => { h with run := .fe })
    | [] => .error (.trap { cause := .addrHole, val := word va })

/-- LDFE (R119, R256): an acquire. -/
def execLdfe (d a e : Reg) (r : Bool) (s : State) : Host.Outcome State Fault Refusal :=
  s.checked (.ldfe d a e r) <| s.closing fun s => do
    let _ ← lift (s.regClean (if r then [a, e] else [a]))
    s.fe 0 d a e r 0

/-- STFE (R119, R256): a release. -/
def execStfe (x a e : Reg) (r : Bool) (s : State) : Host.Outcome State Fault Refusal :=
  s.checked (.stfe x a e r) <| s.closing fun s => do
    let _ ← lift (s.regClean (if r then [x, a, e] else [x, a]))
    s.released fun s => s.fe 1 0 a e r (s.x x)

/-- FESET (R256). -/
def execFeset (a e : Reg) (r : Bool) (s : State) : Host.Outcome State Fault Refusal :=
  s.checked (.feset a e r) <| s.closing fun s => do
    let _ ← lift (s.regClean (if r then [a, e] else [a]))
    s.fe 2 0 a e r 0

/-- FECLR (R256). -/
def execFeclr (a e : Reg) (r : Bool) (s : State) : Host.Outcome State Fault Refusal :=
  s.checked (.feclr a e r) <| s.closing fun s => do
    let _ ← lift (s.regClean (if r then [a, e] else [a]))
    s.fe 3 0 a e r 0

/-! ### Atomics and fences -/

/-- The new value of an atomic on w bits (R258). -/
def amoValue (op w old b c : Nat) : Nat :=
  let b := b % 2 ^ w
  match op with
  | 0 => (old + b) % 2 ^ w
  | 1 => if signedOf w old ≤ signedOf w b then old else b
  | 2 => if signedOf w old ≥ signedOf w b then old else b
  | 3 => min old b
  | 4 => max old b
  | 5 => old &&& b
  | 6 => old ||| b
  | 7 => old ^^^ b
  | 8 => b
  | _ => if old = b then c % 2 ^ w else old

/-- The value an atomic returns: sign-extended from its width (R252, R258). -/
def amoOld (w old : Nat) : Word := BitVec.ofInt 64 (signedOf w old)

/-- An atomic at the home unit of the places of its word: the state and the old value (R112, R258). -/
def State.atomicAt (s : State) (ls : List Loc) (op : Nat) (b c : Word) : Except Stop (State × Word) := do
  let w := 8 * ls.length
  let old := s.numAt ls
  let t ← s.perform (ls.zip (bytesOf ls.length (amoValue op w old b.toNat c.toNat)))
  pure (t, amoOld w old)

/-- The register after b, the new value of CAS (R257). -/
def nextReg (b : Reg) : Reg := b + 1

/-- The operand registers of an atomic (R252, R258): only CAS, which is op 9, reads the register after b. -/
def amoOperands (op : BitVec 4) (b : Reg) : List Reg := if op = 9 then [b, nextReg b] else [b]

/-- AMO (R258). -/
def execAmo (d a b : Reg) (c : BitVec 3) (o : BitVec 2) (z : Bool) (p : BitVec 4) (s : State) : Host.Outcome State Fault Refusal :=
  s.checked (.amo d a b c o z p) <| s.closing fun s => do
    let _ ← lift (s.regClean (a :: amoOperands p b))
    let act := fun s : State => do
      let va := (s.x a).toNat
      let n := if z then 8 else 4
      let q ← lift (s.locate s.view va n n true)
      let q ← lift (q.noTier va)
      let _ ← lift (s.afterLoops q.locs)
      let _ ← lift (s.poisonCheck q.locs va)
      let (t, old) ← s.atomicAt q.locs p.toNat (s.x b) (s.x (nextReg b))
      pure (t.result d old)
    if o.toNat ≥ 2 then s.released act else act s

/-- RATOM (R252): the endpoint is read from xd, and xd receives the old value when the answer arrives; it follows the agent's own
stores to its word (R106). -/
def execRatom (d a b : Reg) (o : BitVec 2) (z : Bool) (p : BitVec 4) (s : State) : Host.Outcome State Fault Refusal :=
  s.checked (.ratom d a b o z p) <| s.closing fun s => do
    let _ ← lift (s.regClean (d :: a :: amoOperands p b))
    let va := (s.x a).toNat
    let n := if z then 8 else 4
    if remoteStraddles va n then .error (.trap { cause := .windowStraddle, val := word va })
    else if va % n ≠ 0 then .error (.trap { cause := .misaligned, val := word va })
    else
      let act := fun s : State =>
        let ep := (s.x d).toNat % 8192
        s.behindOwn ep va n fun s => s.drawn ep 1 fun s => .ok (s.ask ep (.atomic p z (word va) (s.x b) (s.x (nextReg b))) (.ratom s.focus d.val z))
      if o.toNat ≥ 2 then s.released act else act s

/-- A FENCE or LSYNC ends: the words fetched beyond it are discarded (R136). -/
def State.fenced (s : State) : State := (s.onFocus fun h => { h with ahead := [] }).stepPc.retire

/-- FENCE.rel (R259). -/
def execFenceRel (c : BitVec 3) (s : State) : Host.Outcome State Fault Refusal :=
  s.checked (.fenceRel c) <| s.closing fun s => s.released fun s => .ok s.fenced

/-- FENCE.acq (R259): earlier loads have returned; the combining-buffer lines leave. -/
def execFenceAcq (c : BitVec 3) (s : State) : Host.Outcome State Fault Refusal :=
  s.checked (.fenceAcq c) <| s.closing fun s => if !s.isFw && s.combined then s.sendOwn fun _ => true else .ok s.fenced

/-- FENCE.ar (R259). -/
def execFenceAr (c : BitVec 3) (s : State) : Host.Outcome State Fault Refusal :=
  s.checked (.fenceAr c) <| s.closing fun s => s.released fun s => .ok s.fenced

/-- FENCE.sc (R111, R259). -/
def execFenceSc (c : BitVec 3) (s : State) : Host.Outcome State Fault Refusal :=
  s.checked (.fenceSc c) <| s.closing fun s => s.released fun s => .ok s.fenced

/-- LSYNC (R111, R259). -/
def execLsync (s : State) : Host.Outcome State Fault Refusal :=
  s.checked .lsync <| s.closing fun s => s.released fun s => .ok s.fenced

end Sys2Proof.Machine
end

