-- ==== Sys2Proof/Machine/Copy.lean ====
section
/-! DEFINITION. Copies: the parameter block and its checks, the issue of CP, CP.G, CP.S, RGET and RPUT, the landing of pieces,
page-ins, aborts, and the cut-back and re-issue of register copies (R62, R98, R246 to R251, R306, R337 to R339). -/

namespace Sys2Proof.Machine

/-! ### Parameter blocks (R246, R247) -/

/-- A parameter block from its sixteen words (R246). -/
def paramsOf (w : List Nat) : Params :=
  let f := fun i => w.getD i 0
  { dm1 := bits (f 0) 55 54, sk := bits (f 0) 53 51, dk := bits (f 0) 50 48, tk := bit (f 0) 47, cm := bit (f 0) 46,
    tier := bit (f 0) 45, esz := bits (f 0) 43 42, vd := bits (f 0) 41 36, mtype := bits (f 0) 31 24, src := word (f 1),
    dst := word (f 2), e2 := bits (f 3) 63 48, e1 := bits (f 3) 47 32, e0 := bits (f 3) 31 0, ss1 := word (f 4),
    ss2 := word (f 5), ds1 := word (f 6), ds2 := word (f 7), token := word (f 8), user := word (f 9), ep := bits (f 10) 12 0 }

/-- The kinds an instruction allows (R247): 0 CP, 1 CP.G, 2 CP.S, 3 RGET, 4 RPUT. -/
def kindsOk (which : Nat) (p : Params) : Bool :=
  match which with
  | 0 => p.sk ≤ 1 && ([0, 1, 3].contains p.dk || ([4, 5].contains p.dk && p.sk == 0))
  | 1 => p.sk ≤ 2 && p.dk == 1
  | 2 => p.sk == 1 && p.dk ≤ 2
  | 3 => p.sk == 2 && [0, 1, 3].contains p.dk
  | _ => p.sk ≤ 1 && p.dk == 2

/-- The side that lies at another endpoint is named by EP (R246). -/
def namesEp (which : Nat) (p : Params) : Bool := (which == 1 && p.sk == 2) || (which == 2 && p.dk == 2)

/-- A row of a kind-1 or kind-2 side lies in one window (R247). -/
def rowOk (cores kind a n : Nat) : Bool :=
  let last := (a + (n - 1)) % 2 ^ 64
  match kind with
  | 1 => (match regionOf cores a with | .self | .gang _ => true | _ => false) && regionOf cores a == regionOf cores last
  | 2 => (match regionOf 0 a with | .paged | .remote _ => true | _ => false) && regionOf 0 a == regionOf 0 last
  | _ => true

/-- Address bit 56 agrees with a paged side (R247). -/
def sideOk (kind : Nat) (a : Word) : Bool := kind != 0 || !bit a.toNat 56

/-- The rows of a box, or of the row requests of a gather or scatter, as source and destination (R246, R249). -/
def boxRow (p : Params) (k : Nat) : Word × Word :=
  let r1 := word (k % max 1 p.e1)
  let r2 := word (k / max 1 p.e1)
  (p.src + r1 * p.ss1 + r2 * p.ss2, p.dst + r1 * p.ds1 + r2 * p.ds2)

/-- Rows of a box with a byte in it. -/
def boxRows (p : Params) : Nat := if p.e0 = 0 then 0 else p.e1 * p.e2

/-- The fields of a parameter block are in their ranges for a register of `vb` bytes and `n` registers (R246, R247, R249,
R250); the rows are checked beside it. DESIGN CHOICE (log entries 110 and 111): the limit of 2^40 - 1 bytes is that of E0 × E1 × E2, for a
gather or scatter too, and MTYPE of 0xF0 or more is refused only with CM = 1. -/
def paramsOk (which vb n : Nat) (w : List Nat) : Bool :=
  let p := paramsOf w
  let f := fun i => w.getD i 0
  bits (f 0) 63 56 == 1 && p.dm1 != 3 && !bit (f 0) 44 && bits (f 0) 35 32 == 0 && bits (f 0) 23 0 == 0
  && kindsOk which p && (p.dm1 != 0 || p.e1 == 1) && (p.dm1 ≥ 2 || p.e2 == 1)
  && decide (p.e0 * p.e1 * p.e2 ≤ 2 ^ 40 - 1) && (!p.cm || decide (p.mtype < 0xF0))
  && (p.dk < 3 || p.dst == 0) && sideOk p.sk p.src && (p.dk ≥ 3 || sideOk p.dk p.dst)
  && (namesEp which p || p.ep == 0) && bits (f 10) 63 13 == 0 && (List.range 5).all (fun i => f (11 + i) == 0)
  && ((which != 1 && which != 2) || p.dm1 == 0)
  && (p.dk != 3 || (p.dm1 == 0 && p.e0 % 2 ^ p.esz == 0 && decide (p.e0 ≤ vb)))
  && decide (p.vd < n)

/-! ### A copy in flight -/

/-- Rows of a copy. -/
def Copy.rowCount (c : Copy) : Nat := match c.rows with | some l => if c.p.e0 = 0 then 0 else l.length | none => boxRows c.p

/-- Row k of a copy. -/
def Copy.row (c : Copy) (k : Nat) : Word × Word := match c.rows with | some l => l.getD k (0, 0) | none => boxRow c.p k

/-- The first byte of a landed range in the order of rows, and its end. -/
def Copy.span (c : Copy) (r : Nat × Nat × Nat) : Nat × Nat := (r.1 * c.p.e0 + r.2.1, r.1 * c.p.e0 + r.2.1 + r.2.2)

/-- The first byte at or after `pos` that has not landed. -/
def Copy.skipLanded (c : Copy) : Nat → Nat → Nat
  | 0, pos => pos
  | n + 1, pos =>
    match c.landed.find? fun r => decide ((c.span r).1 ≤ pos ∧ pos < (c.span r).2) with
    | some r => c.skipLanded n (c.span r).2
    | none => pos

/-- The piece of a copy at a position, cut at its row's end and at what has landed: the row, the bytes skipped, the bytes. -/
def Copy.pieceFrom (c : Copy) (pos len : Nat) : Option (Nat × Nat × Nat) :=
  let pos := c.skipLanded c.landed.length pos
  if pos ≥ c.p.e0 * c.rowCount then none
  else
    let row := pos / c.p.e0
    let stop := c.landed.foldl (fun m r => if pos < (c.span r).1 then min m (c.span r).1 else m) ((row + 1) * c.p.e0)
    let n := stop - pos
    some (row, pos % c.p.e0, if len = 0 then n else min len n)

/-- The piece an event names; one of no length, or one that has landed, stands for the first that has not. -/
def Copy.piece (c : Copy) (row skip len : Nat) : Option (Nat × Nat × Nat) :=
  let pos := row * c.p.e0 + skip
  if len = 0 ∨ row ≥ c.rowCount ∨ skip ≥ c.p.e0 ∨ c.skipLanded c.landed.length pos ≠ pos then c.pieceFrom 0 0
  else c.pieceFrom pos len

/-- Bytes of a register copy landed in prefix order: whole groups of 32 bytes, or the whole copy (R306). -/
def Copy.prefix (c : Copy) : Nat :=
  let p := c.skipLanded c.landed.length 0
  if p ≥ c.total then c.total else p / 32 * 32

/-- A copy by its transfer ID. -/
def State.copy? (s : State) (id : Nat) : Option Copy := s.copies.find? fun c => c.id.toNat == id

/-- Replace a copy. -/
def State.setCopy (s : State) (c : Copy) : State := { s with copies := s.copies.map fun k => if k.id == c.id then c else k }

/-- Remove a copy, with its place among the requests that wait for units (R35). -/
def State.dropCopy (s : State) (id : Word) : State :=
  ({ s with copies := s.copies.filter (·.id != id) } : State).dropUnits (·.who == .copy id)

/-- The core that holds a coroutine of a copy's gang now: the issuing core, else another core of its partition. -/
def State.coroAt (s : State) (cid gid coid : Nat) : Option Nat :=
  if ((s.core cid).coro gid coid).isSome then some cid
  else ((s.cores.map (·.1)).find? fun k => s.partOf k == s.partOf cid && ((s.core k).coro gid coid).isSome)

/-- A copy with a destination in a gang's allocation, or a started push, ended: a gang exit that waited goes on (R42). -/
def State.kickExits (s : State) : State :=
  (s.gangs.filter (·.ending)).foldl (fun t g => t.later (.gangExit g.gid)) s

/-- THE END OF A COPY (R248): every byte has landed and every contribution is made; then its completion message is posted. -/
def State.copyDone (s : State) (id : Word) : State :=
  match s.copies.find? (·.id == id) with
  | none => s
  | some c =>
    let open_ := s.heldContributions.any (·.xfer == id)
      || s.fabric.sent.any fun r => match r.cont with | .contribution _ x _ => x == id | _ => false
    if c.got < c.total ∨ open_ then s
    else
      let t := (s.dropCopy id).kickExits
      if c.p.cm then
        t.generate c.cid c.p.mtype (bytesOf 8 id.toNat ++ bytesOf 8 c.p.user.toNat ++ bytesOf 8 c.p.token.toNat)
      else t

/-- A coroutine gives up its place at the full/empty word it waits for (R86, R251): its instruction asks again when it runs. -/
def State.leaveFe (s : State) (cid gid coid : Nat) : State :=
  { s with feHeld := s.feHeld.filter fun f => match f.who with
      | .coro c g n _ => !(c == cid && g == gid && n == coid)
      | _ => true }

/-- THE ABORT OF A COPY (R251): COPY_ABORT goes to the issuing coroutine, or to system software where it has retired; a coroutine
that awaits is made ready before its waiting instruction completes. A copy that a drain stops raises none (R345 step 4). -/
def State.abortCopy (s : State) (c : Copy) (cause : Cause) (a : Word) : State :=
  let t : Trap := { cause := .copyAbort, sub := causeCode cause, val := c.id, val2 := a }
  let s := (s.dropCopy c.id).kickExits
  if s.partOf c.cid < 16 ∧ s.partState (s.partOf c.cid) = 2 then s
  else match s.coroAt c.cid c.gid c.coid with
  | none => s.postAsync c.cid t
  | some cid =>
    let s := s.onCoro cid c.gid c.coid fun k => { k with traps := k.traps ++ [t] }
    match (s.core cid).coro c.gid c.coid with
    | some k => if k.running ∨ k.met then s else (s.leaveFe cid c.gid c.coid).ready cid c.gid c.coid
    | none => s

/-! ### Landing in a register (R250) -/

/-- Bytes [off, off + n) of an image replaced. -/
def putImage (x off n v : Nat) : Nat :=
  x % 256 ^ off + 256 ^ off * (v % 256 ^ n) + x / 256 ^ (off + n) * 256 ^ (off + n)

/-- Bytes land in a vector register, with the bytes that carry poison (R250, R360). -/
def Ctx.landV (c : Ctx) (vd off : Nat) (bs : List Byte) (bad : List Nat) : Ctx :=
  match c.v[vd]? with
  | none => c
  | some x =>
    let c := { c with v := c.v.set! vd (putImage x off bs.length (ofBytes bs)) }
    c.repoison 0 vd 8 ((List.range bs.length).map fun i => (off + i, bad.contains i))

/-- The registers of a coroutine, wherever they are, change: on its hart, in the lazy record of its hart, or saved (R250, R302). At
CEXIT landings are discarded. -/
def State.onRegs (s : State) (cid gid coid : Nat) (f : Ctx → Ctx) : State :=
  match (s.core cid).coro gid coid with
  | none => s
  | some k =>
    let at_ := (List.range 8).find? fun h => (s.hartOf (.hart cid h)).occ == some (gid, coid)
    match k.running, at_ with
    | true, some h => s.onHart (.hart cid h) fun h => match h.lazy with
      | some l => { h with lazy := some (f l) }
      | none => { h with ctx := f h.ctx }
    | _, _ => s.onSaved cid gid coid f

/-- Bytes of a copy land in its register (R250). One that supervisor code issued lands in the registers of the coroutine under
which it was issued, or, issued with those set aside (R302), in the handler's own while they last; without a coroutine, in its
hart's (log entry 69). -/
def State.landReg (s : State) (c : Copy) (off : Nat) (bs : List Byte) (bad : List Nat) : State :=
  let f := fun k : Ctx => k.landV c.p.vd off bs bad
  let h := s.hartOf c.agent
  if c.forCoro then s.onRegs c.cid c.gid c.coid f
  else if h.occ.getD (65536, 0) == (c.gid, c.coid) && h.level != .user && (!c.vlz || statusBit h.sstatus vlzBit) then
    s.onHart c.agent fun h => { h with ctx := f h.ctx }
  else s

/-! ### Pages (R97, R98, R338, R339) -/

/-- An entry of the frame ring names a frame of page size `size` (R338). -/
def frameOk (size e : Nat) : Bool :=
  let b := if size = 2 then 30 else if size = 1 then 21 else 16
  e == bits e 51 16 * 65536 && e % 2 ^ b == 0 && decide (e + 2 ^ b ≤ Config.deviceEnd)

/-- Entries of a frame ring from CONS up, the malformed ones skipped: the frame taken, if any, and the new CONS. -/
def State.frameFrom (s : State) (root base log size prod : Nat) : Nat → Nat → Option Nat × Nat
  | 0, cons => (none, cons)
  | n + 1, cons =>
    if cons = prod then (none, cons)
    else
      match s.pagedOnly root false (base + 8 * (cons % 2 ^ log)) 8 with
      | .error _ => (none, cons)
      | .ok p =>
        let e := s.numAt p.locs
        if !p.tiers.isEmpty then (none, cons)
        else if frameOk size e then (some e, (cons + 1) % 2 ^ 64)
        else s.frameFrom root base log size prod n ((cons + 1) % 2 ^ 64)

/-- Take one frame of a partition's pool (R338); none while the pool is empty or cannot be reached. -/
def State.takeFrame (s : State) (part size : Nat) : Option Nat × State :=
  let root := (s.rootsOf part).2
  let pool := if part < 16 then s.dev8 (pcaWord part 3) else 0
  if pool = 0 then (none, s)
  else
    match s.pagedOnly root true (pool + 32 * size) 32 with
    | .error _ => (none, s)
    | .ok p =>
      if !p.tiers.isEmpty then (none, s)
      else
        let f := fun i => s.numAt ((p.locs.drop (8 * i)).take 8)
        let r := s.frameFrom root (f 0) (f 1 % 32) size (f 2) ((f 2 + 2 ^ 64 - f 3) % 2 ^ 64) (f 3)
        (r.1, s.putOwn ((p.locs.drop 24).zip (bytesOf 8 r.2)))

/-- A copy on a T page looks for a frame (R98 steps 1 and 2): TIER_NOFRAME is raised once for it; with a frame the page-in is in flight, the
tier-miss message is posted, and the copies that looked for a frame of that page too are held on it. -/
def State.findFrame (s : State) (g : PageIn) : State :=
  match s.takeFrame g.part g.size with
  | (none, s) =>
    let s : State := { s with pageins := s.pageins.map fun k => if k == g then { k with noframe := true } else k }
    if g.noframe then s else s.postAsync g.cid { cause := .tierNoframe, val := word g.va, val2 := word g.size }
  | (some f, s) =>
    let all := (s.pageins.filter (·.entry == g.entry)).flatMap (·.waiters)
    let s : State := { s with pageins := s.pageins.filter (·.entry != g.entry)
                                ++ [{ g with frame := some f, noframe := false, waiters := all }] }
    (s.generate g.cid 0xF2 (bytesOf 8 g.va ++ bytesOf 8 g.size ++ bytesOf 8 g.token.toNat)).later (.pageInComplete g.entry)

/-- A copy meets a translation fault (R337): it is held, and a fault other than the last one reported is reported. -/
def State.holdCopy (s : State) (c : Copy) (t : Trap) : State :=
  let t := { t with val2 := c.id }
  let s := s.setCopy { c with held := .walk t, reported := some t }
  if c.reported = some t then s else s.postAsync c.cid t

/-- A copy meets a T page (R97, R98): it is held on the page-in in flight; where there is none, since one without a frame is not (R349), it
begins one of its own, but for one that a drain stops, which takes no frame (R345, R349). The page-in's rewrite is a write, which the entry has to
allow (R335). -/
def State.meetTier (s : State) (c : Copy) (root : Nat) (page : Nat × Nat) : State :=
  match s.leafFor root false true page.1 with
  | .error t => s.holdCopy c t
  | .ok l =>
    let s := s.setCopy { c with held := .page page.1 }
    if s.pageins.any fun g => g.entry == l.entry && g.frame.isSome then
      { s with pageins := s.pageins.map fun g =>
          if g.entry == l.entry && g.frame.isSome then { g with waiters := g.waiters.filter (· != c.id) ++ [c.id] } else g }
    else if s.halts c.cid then s
    else
      let g : PageIn := { part := s.partOf c.cid, root := root, va := page.1, size := page.2, entry := l.entry, cid := c.cid,
                          pte := l.pte, token := c.p.token, frame := none, noframe := false, waiters := [c.id] }
      ({ s with pageins := s.pageins ++ [g] } : State).findFrame g

/-- PAGE_IN_FRAME_RETRY (R338): the copies that wait for a frame of a page look in their pools again. -/
def execPageInFrameRetry (n : Nat) (s : State) : Host.Outcome State Fault Refusal :=
  .next ((s.pageins.filter fun g => g.entry == n && g.frame.isNone).foldl (fun t g =>
    if t.pageins.contains g then t.findFrame g else t) s)

/-- The leaf that replaces a T entry: the frame, T = 0, every other bit as found (R339). -/
def pageInLeaf (pte frame : Nat) : Nat := pte - pteAddr pte - 2 ^ 62 * flag (bit pte 62) + frame

/-- Bytes of the page a page-in moves. -/
def PageIn.bytes (g : PageIn) : Nat := 2 ^ pageBits g.size

/-- An address of storage holds a byte of `n` bytes of device memory from a frame `f` on (R370). -/
def State.inFrames (s : State) (f n a : Nat) : Bool :=
  let g := a / 65536 * 65536
  let home := frameHome s.molt.remap s.molt.remap.length
  (decide (f ≤ g ∧ g < f + n) && home g == g) || s.molt.remap.any fun e => decide (f ≤ e.1 ∧ e.1 < f + n) && home e.1 == g

/-- The full/empty bits of the words of a frame are set (R85). -/
def State.fillFrame (s : State) (f n : Nat) : State :=
  { s with mem := { s.mem with empty := s.mem.empty.filter fun w => !s.inFrames f n (8 * w) } }

/-- The poison of a tier page goes with its bytes into the frame (R360). -/
def State.carryPoison (s : State) (host f n : Nat) : State :=
  ((List.range (n / 8)).filter fun i => s.poisonAt (.host (host + 8 * i))).foldl (fun t i => t.putPoison (.dev (f + 8 * i)) true) s

/-- The copies held on a page-in go on, in the order in which they met the page (R98). -/
def State.releasePage (s : State) (g : PageIn) : State :=
  g.waiters.foldl (fun t id => match t.copies.find? (·.id == id) with
    | some c => (t.setCopy { c with held := .no }).later (.copyPieceLand id.toNat 0 0 0)
    | none => t) { s with pageins := s.pageins.filter (·.entry != g.entry) }

/-- A page-in comes to its end (R98, R339): the page is in its frame, with every full/empty bit set (R85), its entry is rewritten, and
every copy held on it goes on. The stores wait as any store does (R233, R336). -/
def State.pageIn (s : State) (g : PageIn) (f : Nat) : Except Stop State := do
  let a := pteAddr g.pte
  let t ← s.perform (((Loc.dev f).run g.bytes).zip (((Loc.host a).run g.bytes).map s.byteAt))
  let t ← ((t.carryPoison a f g.bytes).fillFrame f g.bytes).perform (((Loc.dev g.entry).run 8).zip (bytesOf 8 (pageInLeaf g.pte f)))
  pure (t.releasePage g)

/-- PAGE_IN_COMPLETE (R98, R339): it waits while no host port serves the page (R387), and while its stores have to. -/
def execPageInComplete (n : Nat) (s : State) : Host.Outcome State Fault Refusal :=
  match s.pageins.find? fun g => g.entry == n && g.frame.isSome with
  | none => .next s
  | some g =>
    if !s.tierUp then .next (s.retry (.pageInComplete n))
    else
      match s.pageIn g (g.frame.getD 0) with
      | .error _ => .next (s.retry (.pageInComplete n))
      | .ok t => .next t

/-! ### The pieces of a copy (R248) -/

/-- Bytes left on the 64 KiB page of an address, or in its 256-byte block for a side at another endpoint (R374, R375). -/
def roomAt (kind a : Nat) : Nat := if kind = 2 then 256 - a % 256 else 65536 - a % 65536

/-- The places of one side of a piece on this endpoint (R247, R251): a paged side is translated for the issuer, a window belongs to
the issuing core's coroutine. `row` is the first byte of its row, which has to lie in one region (R84). DESIGN CHOICE (log entry 92): a row
of a kind-0 side that its strides place in a hole or wholly inside a window raises ADDR_HOLE, since R247 asks for bit 56 clear and states
no outcome for it. -/
def State.copySide (s : State) (c : Copy) (kind row a n : Nat) (write : Bool) : Except Trap Spot :=
  let r := s.copyRoot c
  let v : Viewer := match c.agent with
    | .hart _ _ => s.coreViewer c.cid (some c.gid) r.2
    | .fw _ => { cid := none, gang := none, root := r.1, user := false }
  if kind = 0 then
    if v.straddles row c.p.e0 then .error { cause := .windowStraddle, val := word row }
    else if regionOf 0 row ≠ .paged then .error { cause := .addrHole, val := word row }
    else s.pagedSpot r.1 r.2 write a n
  else s.locate v a n 1 write

/-- A copy's contributions catch up with what has landed (R248, R306): the bytes of a register copy in prefix order. -/
def State.copyPay (s : State) (c : Copy) : State :=
  let due := if c.p.dk = 3 then c.prefix else c.got
  let s := s.setCopy { c with paid := due }
  if !c.p.tk ∨ due ≤ c.paid then s
  else s.contribute c.p.token (due - c.paid) (.core c.cid) (s.partOf c.cid) (s.copyRoot c).1 (s.copyRoot c).2 c.id

/-- A piece of a copy has landed: it counts and contributes; the copy goes on or ends (R248). -/
def State.copyLanded (s : State) (c : Copy) (row skip len : Nat) : State :=
  let c := { c with landed := c.landed ++ [(row, skip, len)], got := c.got + len, held := .no, first := false }
  let s := s.copyPay c
  if c.got < c.total then s.later (.copyPieceLand c.id.toNat 0 0 0) else s.copyDone c.id

/-- What a fault on a row of a copy does (R251, R337). -/
def State.copyFault (s : State) (c : Copy) (t : Trap) : State :=
  if t.cause = .xlateFault then s.holdCopy c t else s.abortCopy c t.cause t.val

/-- The units of a packet of a copy: those the issue drew for the first, others in the order of the waiting requests
(R35, R375). None while they are missing, with the state in which the copy waits for them. -/
def State.copyUnits (s : State) (c : Copy) (ep u : Nat) : Option State × State :=
  if c.first then (some s, s)
  else
    match s.draw (.copy c.id) ep u with
    | some t => (some t, t)
    | none => (none, (s.setCopy { c with held := .units ep u }).queueFor (.copy c.id) ep u)

/-- The bytes of a piece land in their destination on this endpoint, or wait for a lease (R233, R248). -/
def State.copyStore (s : State) (c : Copy) (row skip : Nat) (bs : List Byte) (bad : List Nat) : State :=
  let a := ((c.row row).2 + word skip).toNat
  let n := bs.length
  match c.p.dk with
  | 3 => (s.landReg c skip bs bad).copyLanded c row skip n
  | 4 | 5 => s.copyLanded c row skip n
  | k =>
    match s.copySide c k (c.row row).2.toNat a n true with
    | .error t => s.copyFault c t
    | .ok p =>
      match p.tiers with
      | page :: _ => if c.p.tier then s.meetTier c (s.copyRoot c).1 page else s.abortCopy c .tierAccess (word a)
      | [] =>
        match s.perform (p.locs.zip bs) with
        | .error _ => s.retry (.copyPieceLand c.id.toNat row skip n)
        | .ok t =>
          let poisoned := ((bad.filterMap fun i => p.locs[i]?).map Loc.word).dedup
          (poisoned.foldl (fun t l => t.putPoison l true) t).copyLanded c row skip n

/-- The endpoint of a copy's remote side. -/
def Copy.remoteEp (c : Copy) : Nat := c.p.ep

/-- COPY_PIECE_LAND (R248, R249): a piece of a copy is read and lands, or its request leaves for another endpoint. -/
def execCopyPieceLand (n row skip len : Nat) (s : State) : Host.Outcome State Fault Refusal :=
  match s.copy? n with
  | none => .next s
  | some c =>
    let busy := s.fabric.sent.any fun r => match r.cont with | .copy id _ _ _ => id == c.id | _ => false
    if c.held ≠ .no ∨ busy then .next s
    else
      match c.piece row skip len with
      | none =>
        if c.total = 0 ∧ c.p.tk ∧ c.first then
          let s := s.setCopy { c with first := false }
          .next ((s.contribute c.p.token 0 (.core c.cid) (s.partOf c.cid) (s.copyRoot c).1 (s.copyRoot c).2 c.id).copyDone c.id)
        else .next (s.copyDone c.id)
      | some (row, skip, len) =>
        let r := c.row row
        let a := (r.1 + word skip).toNat
        let b := (r.2 + word skip).toNat
        let len := min len (min (roomAt c.p.sk a) (if c.p.dk ≤ 2 then roomAt c.p.dk b else 65536))
        if c.p.sk = 2 then
          match s.copyUnits c c.remoteEp 1 with
          | (none, t) => .next t
          | (some t, _) =>
            let t := t.setCopy { c with first := false }
            .next (t.send c.cid c.remoteEp (.load (word a) len) (.copy c.id row skip len))
        else
          match s.copySide c c.p.sk r.1.toNat a len false with
          | .error t => .next (s.copyFault c t)
          | .ok p =>
            match p.tiers with
            | page :: _ =>
              if c.p.tier then .next (s.meetTier c (s.copyRoot c).1 page) else .next (s.abortCopy c .tierAccess (word a))
            | [] =>
              let bs := p.locs.map s.byteAt
              let bad := (List.range len).filter fun i => match p.locs[i]? with | some l => s.poisonAt l | none => false
              if c.p.dk = 2 then
                match s.copyUnits c c.remoteEp (unitsOf len) with
                | (none, t) => .next t
                | (some t, _) =>
                  let t := t.setCopy { c with first := false }
                  .next (t.send c.cid c.remoteEp (.store (word b) (bs.map some) bad) (.copy c.id row skip len))
              else .next (s.copyStore c row skip bs bad)

/-- COPY_REWALK (R337): a copy held on a translation fault walks again. -/
def execCopyRewalk (n : Nat) (s : State) : Host.Outcome State Fault Refusal :=
  match s.copy? n with
  | none => .next s
  | some c =>
    match c.held with
    | .walk _ => execCopyPieceLand n 0 0 0 (s.setCopy { c with held := .no })
    | _ => .next s

/-! ### Issue -/

/-- The bytes of the first packet of a copy with a remote destination (R375). -/
def Copy.firstPacket (c : Copy) : Nat :=
  let b := (c.row 0).2.toNat
  min c.p.e0 (min (roomAt c.p.sk (c.row 0).1.toNat) (roomAt 2 b))

/-- The row requests of CP.G and CP.S: one for each active element below VL (R249). -/
def State.gatherRows (s : State) (which : Nat) (p : Params) (v : BitVec 6) (x q : Bool) (k : BitVec 3) :
    Except Stop (List (Word × Word)) :=
  let c := s.hart.ctx
  let width := if x then 64 else 32
  let act := (List.range c.vl).filter fun i => k.toNat == 0 || bit (c.kreg k.toNat) i != q
  let num := fun i => if i < s.mvl width then elem (c.vreg v) width i else Config.freeRowNumber s.tick i
  do
    let _ ← lift (s.lengthClean [vlMark])
    let _ ← c.poisonRead (if k.toNat = 0 then [] else [(1, k.toNat, 1)]) (List.range c.vl)
    let _ ← c.poisonRead [(0, v.toNat, width)] act
    pure (act.map fun i =>
      if which = 1 then (p.src + word (num i) * p.ss1, p.dst + word i * p.ds1)
      else (p.src + word i * p.ss1, p.dst + word (num i) * p.ds1))

/-- The agent in view acts for a coroutine at user level (R291). -/
def State.copyUser (s : State) : Bool := s.hart.level == .user

/-- THE ISSUE OF A COPY (R246 to R250): the parameter block is read and checked, the copy waits for room and draws the units
of its first packet or request, and xd receives its transfer ID. DESIGN CHOICE (log entry 108): the first copy a core issues has q = 0. -/
def State.issueCopy (s : State) (which : Nat) (d a : Reg) (ep : Nat)
    (rows : Params → Except Stop (Option (List (Word × Word)))) : Except Stop State := do
  let _ ← lift (s.regClean [a])
  let pb := s.x a
  let (s, x) ← lift (s.loadNum pb.toNat 128 64)
  let w := (List.range 16).map fun i => x / 2 ^ (64 * i) % 2 ^ 64
  let bad : Stop := .trap { cause := .copyParam, val := pb }
  let p := paramsOf w
  if !paramsOk which s.vbytes (regCount s.hart.ctx.vn) w then .error bad
  else do
    let rs ← rows p
    let p := if namesEp which p then p else { p with ep := ep }
    let c : Copy :=
      { id := word (s.cid * 2 ^ 32 + (s.core s.cid).xfers), cid := s.cid, gid := (s.hart.occ.getD (65536, 0)).1,
        coid := (s.hart.occ.getD (65536, 0)).2, sup := !s.copyUser, p := p, pblk := pb, rows := rs, landed := [],
        total := 0, got := 0, paid := 0, vstart := 0, held := .no, first := true, reported := none, agent := s.focus,
        vlz := statusBit s.hart.sstatus vlzBit }
    let c := { c with total := c.p.e0 * c.rowCount }
    let cores := match s.view.gang with | some g => g.cores.length | none => 0
    let inWindow := fun k => rowOk cores p.sk (c.row k).1.toNat p.e0 && (p.dk ≥ 3 || rowOk cores p.dk (c.row k).2.toNat p.e0)
    if !(List.range c.rowCount).all inWindow then .error bad
    else if (s.copies.filter (·.cid == s.cid)).length ≥ Config.maxCopies then .error .wait
    else if p.dk = 3 ∧ (s.regCopies.length ≥ Config.maxRegCopies ∨ s.regCopies.any fun k => k.p.vd == p.vd) then .error .wait
    else
      let go := fun s : State =>
        let s := s.onCore s.cid fun k => { k with xfers := (k.xfers + 1) % 2 ^ 32 }
        let s : State := { s with copies := s.copies ++ [c] }
        (.ok ((s.result d c.id).later (.copyPieceLand c.id.toNat 0 0 0)) : Except Stop State)
      s.released fun s =>
        if c.total = 0 then go s
        else if p.dk = 2 then s.drawn p.ep (unitsOf c.firstPacket) go
        else if p.sk = 2 then s.drawn p.ep 1 go
        else go s

/-- A gather or scatter reads vb once the copies into it have landed (R250). -/
def State.afterLanding (s : State) (v : BitVec 6) (k : Except Stop State) : Except Stop State :=
  if s.regCopies.any fun c => c.p.vd == v.toNat then .error .wait else k

/-- CP (R248): a copy of a box on this endpoint. -/
def execCp (d p : Reg) (s : State) : Host.Outcome State Fault Refusal :=
  s.checked (.cp d p) <| s.closing fun s => s.issueCopy 0 d p 0 fun _ => .ok none

/-- CP.G (R249): a gather by the row numbers of vb. -/
def execCpG (d p : Reg) (v : BitVec 6) (x q : Bool) (k : BitVec 3) (s : State) : Host.Outcome State Fault Refusal :=
  s.checked (.cpG d p v x q k) <|
    if v.toNat ≥ regCount s.hart.ctx.vn then s.illegal (swordBits (.cpG d p v x q k))
    else s.closing fun s => s.afterLanding v <| s.issueCopy 1 d p 0 fun b => do pure (some (← s.gatherRows 1 b v x q k))

/-- CP.S (R249): a scatter by the row numbers of vb. -/
def execCpS (d p : Reg) (v : BitVec 6) (x q : Bool) (k : BitVec 3) (s : State) : Host.Outcome State Fault Refusal :=
  s.checked (.cpS d p v x q k) <|
    if v.toNat ≥ regCount s.hart.ctx.vn then s.illegal (swordBits (.cpS d p v x q k))
    else s.closing fun s => s.afterLanding v <| s.issueCopy 2 d p 0 fun b => do pure (some (← s.gatherRows 2 b v x q k))

/-- RGET (R247): a copy whose source lies at the endpoint in xe. -/
def execRget (d p e : Reg) (s : State) : Host.Outcome State Fault Refusal :=
  s.checked (.rget d p e) <| s.closing fun s => do
    let _ ← lift (s.regClean [e])
    s.issueCopy 3 d p ((s.x e).toNat % 8192) fun _ => .ok none

/-- RPUT (R247): a copy whose destination lies at the endpoint in xe. -/
def execRput (d p e : Reg) (s : State) : Host.Outcome State Fault Refusal :=
  s.checked (.rput d p e) <| s.closing fun s => do
    let _ ← lift (s.regClean [e])
    s.issueCopy 4 d p ((s.x e).toNat % 8192) fun _ => .ok none

/-! ### Register copies at pre-emption (R62, R306) -/

/-- THE CUT-BACK of a coroutine's register copies (R306): contributions are brought up to the landed prefix, and what is left
becomes a copy record. -/
def State.cutBack (s : State) (cid gid coid : Nat) : State :=
  let mine := s.copies.filter fun c => c.p.dk == 3 && c.forCoro && c.cid == cid && c.gid == gid && c.coid == coid
  mine.foldl (fun s c =>
    let pre := c.prefix
    let count := c.p.e0 / 2 ^ c.p.esz
    if pre ≥ c.total then s
    else
      let s := (s.copyPay c).dropCopy c.id
      let r : CopyRec := { vd := c.p.vd, vstart := pre / 2 ^ c.p.esz, count := count, pblk := c.pblk, token := c.p.token, id := c.id, ep := c.p.ep,
                            sup := c.sup }
      s.onCoro cid gid coid fun k => { k with copyRecs := k.copyRecs ++ [r] }) s

/-- THE RE-ISSUE of a coroutine's copy records at restore (R62, R306): the parameter block is read again, and a block that
cannot be read, or holds a poisoned word (R354), aborts the copy. -/
def State.reissue (s : State) (cid gid coid : Nat) : State :=
  match (s.core cid).coro gid coid with
  | none => s
  | some k =>
    let s := s.onCoro cid gid coid fun k => { k with copyRecs := [] }
    k.copyRecs.foldl (fun s r =>
      let c : Copy :=
        { id := r.id, cid := cid, gid := gid, coid := coid, sup := r.sup, p := paramsOf [], pblk := r.pblk, rows := none, landed := [],
          total := 0, got := 0, paid := 0, vstart := r.vstart, held := .no, first := false, reported := none,
          agent := .hart cid k.home, vlz := false }
      match s.locate (s.coreViewer cid (some gid) (!r.sup)) r.pblk.toNat 128 64 false with
      | .error t => s.abortCopy c t.cause t.val
      | .ok q =>
        match q.locs.zipIdx.find? fun e => s.poisonAt e.1 with
        | some e => s.abortCopy c .poison (word ((r.pblk.toNat + e.2) / 8 * 8))
        | none =>
        let x := s.numAt q.locs
        let p := paramsOf ((List.range 16).map fun i => x / 2 ^ (64 * i) % 2 ^ 64)
        let done := r.vstart * 2 ^ p.esz
        let c := { c with p := { p with vd := r.vd, token := r.token, ep := r.ep, e0 := r.count * 2 ^ p.esz }, total := r.count * 2 ^ p.esz,
                          got := done, paid := done, landed := if done = 0 then [] else [(0, 0, done)] }
        ({ s with copies := s.copies ++ [c] } : State).later (.copyPieceLand c.id.toNat 0 0 0)) s

end Sys2Proof.Machine
end

