-- ==== Sys2Proof/Machine/Launch.lean ====
section
/-! DEFINITION. Launches: images, placement, the start of a gang, queue state blocks, run lists and the walker
(R24, R157, R309 to R322). -/

namespace Sys2Proof.Machine

/-! ### Job images (R157) -/

/-- The registers an image gives a coroutine (R21, R157). DESIGN CHOICE (log entry 105): bits above the field that a word of the image gives
a register are ignored. -/
def imageCtx (x : Nat) : Ctx :=
  let f := fun a => imageNum x a 8
  let h := f 0
  let vn := bits h 47 46
  let kc := bits h 45 44
  let mm := bit h 43
  let ms := bit h 42
  let live := f 0x130
  let vb := imageVb vn kc
  let m := vb / 4
  let regs := 0x200 + 8 * m
  let tiles := regs + liveCount live (regCount vn) * vb
  let tb := 16384 / 2 ^ kc
  { Ctx.fresh vn with
    pc := word (f 8)
    x := Vector.ofFn fun i : Fin 32 => if i = 0 then 0 else word (f (0x10 + 8 * (i.val - 1)))
    vl := f 0x108 % 65536, tl := f 0x110 % 128, m := mm
    fcsr := fcsrWrite 0 (word (f 0x118)), lps := word (f 0x120) &&& 0xFFFFFFFF0000003F, srseed := word (f 0x128)
    vstart := f 0x138 % 65536, cbyp := f 0x140 % 2 ^ 40, tiernote := bit (f 0x148) 0
    k := Vector.ofFn fun i : Fin 8 => imageNum x (0x200 + i.val * m) m
    v := Vector.ofFn fun i : Fin 64 =>
      if i.val < regCount vn ∧ bit live i.val then imageNum x (regs + liveRank live i.val * vb) vb else 0
    t := Vector.ofFn fun i : Fin 4 => if ms then imageNum x (tiles + i.val * tb) tb else 0
    bl := if ms then imageNum x (tiles + 4 * tb) tb else 0 }

/-- IMGHDR and LIVE are acceptable for a placement (R318). DESIGN CHOICE (log entry 105): so the Zero area 0x150 to 0x1FF has to be. -/
def imageOk (x kc : Nat) : Bool :=
  let h := imageNum x 0 8
  bits h 45 44 == kc && bits h 63 56 == 1 && bits h 55 48 == 0 && bits h 41 0 == 0
  && (List.range 22).all (fun i => imageNum x (0x150 + 8 * i) 8 == 0)
  && (regCount (bits h 47 46) == 64 || imageNum x 0x130 8 / 2 ^ regCount (bits h 47 46) == 0)
  && !(bit h 42 && !bit h 43)

/-- The places of an image at a virtual address of a partition; the failing address where they cannot be read (R319). -/
def State.runSpots (s : State) (root : Nat) (user : Bool) (va n : Nat) : Except Nat (List Loc) := do
  let chunks := (n + 0xFFFF) / 0x10000 + 1
  let parts ← (List.range chunks).mapM fun i =>
    let a := if i = 0 then va else va / 0x10000 * 0x10000 + i * 0x10000
    let e := min (va + n) (va / 0x10000 * 0x10000 + (i + 1) * 0x10000)
    if e ≤ a then (.ok [] : Except Nat (List Loc))
    else match s.pagedSpot root user false a (e - a) with
      | .error t => .error t.val.toNat
      | .ok p => if p.tiers.isEmpty then .ok p.locs else .error a
  pure parts.flatten

/-- The bytes there as one number. -/
def State.readRun (s : State) (root : Nat) (user : Bool) (va n : Nat) : Except Nat Nat := (s.runSpots root user va n).map s.numAt

/-- The offset of a register word in an image whose IMGHDR is `h` (R157). -/
def imageOffset (h live : Nat) (w : RegWord) : Option Nat := wordPlace 0x200 8 (bits h 47 46) (bits h 45 44) live (bit h 42) w

/-- The registers an image gives, with the poison of its words (R157, R360). -/
def State.imageStart (s : State) (ls : List Loc) : Ctx :=
  let x := s.numAt ls
  let h := imageNum x 0 8
  { imageCtx x with
    poison := (shapeWords (bits h 47 46) (bits h 45 44)).filter fun w =>
      match (imageOffset h (imageNum x 0x130 8) w).bind fun o => ls[o]? with
      | some l => s.poisonAt l
      | none => false }

/-! ### Placement (R24, R317) -/

/-- A LAUNCH or JOB packet read from its ring (R315, R316). -/
structure LaunchPacket where
  job : Bool
  ovl : Bool
  mring : Bool
  notify : Bool
  kh : Nat
  bpri : Nat
  vn : Nat
  gid : Nat
  entry : Nat
  nco : Nat
  vlen : Nat
  ncore : Nat
  spad : Nat
  heapBase : Nat
  heapSize : Nat
  donek : Nat
  deriving DecidableEq, Repr

/-- A packet as its eight words (R315, R316). -/
def launchPacket (w : List Nat) : LaunchPacket :=
  let f := fun i => w.getD i 0
  { job := bits (f 0) 63 56 == 2, ovl := bit (f 0) 55, mring := bit (f 0) 54, notify := bit (f 0) 53, kh := bits (f 0) 52 51,
    bpri := bits (f 0) 50 48, vn := bits (f 0) 47 46, gid := bits (f 0) 31 16, entry := f 1, nco := bits (f 2) 63 32,
    vlen := bits (f 2) 31 0, ncore := bits (f 3) 42 32, spad := bits (f 3) 4 0, heapBase := f 4, heapSize := f 5,
    donek := f 6 }

/-- Class S: 1 to 512 requested elements and no named hart count (R24). -/
def LaunchPacket.classS (p : LaunchPacket) : Bool := p.kh == 0 && decide (p.vlen ≤ 512)

/-- LPART.KC of the placement (R24, R315). -/
def LaunchPacket.kc (p : LaunchPacket) : Nat := if p.kh = 0 then (if p.vlen ≤ 512 then 3 else 0) else p.kh

/-- The fields of a packet are legal (R315 to R317). -/
def packetOk (w : List Nat) : Bool :=
  let f := fun i => w.getD i 0
  let t := bits (f 0) 63 56
  let p := launchPacket w
  decide (t ≤ 3) && p.kh != 3 && bits (f 0) 45 32 == 0 && bits (f 0) 15 0 == 0 &&
  if t = 0 then true
  else if t = 3 then (List.range 6).all fun i => f (i + 2) == 0
  else
    (if t = 1 then p.entry % 4 == 0 && p.nco != 0 else p.entry % 64 == 0 && p.nco == 1) && p.vlen != 0
    && bits (f 3) 63 43 == 0 && bits (f 3) 31 5 == 0 && decide (p.spad ≤ 16)
    && (p.classS && p.spad == 0 || !p.classS && decide (1 ≤ p.ncore ∧ p.ncore ≤ Config.cores) && (!p.mring || p.ncore % 8 == 0))
    && p.heapBase % 64 == 0 && f 7 == 0

/-- The inbox ring of a core lies at or above an allocation of SPAD units (R317). -/
def Core.ringAbove (c : Core) (spad : Nat) : Bool := c.inboxUnits == 0 || decide (spad * 65536 ≤ c.inboxOff * 64)

/-- A new hart count of a core (R293, R294). -/
def Core.setKc (c : Core) (kc : Nat) : Core := { c with kc := kc, evhart := if c.evhart < 2 ^ kc then c.evhart else 0 }

/-- A core that a launch of a partition may use (R317): no other gang holds it, and its hart count is the placement's or,
while it holds no coroutine, can be set to it (R51, log entry 27). -/
def State.eligible (s : State) (part : Nat) (p : LaunchPacket) (cid : Nat) : Bool :=
  decide (cid < Config.cores) && s.partOf cid == part && ((s.core cid).kc == p.kc || (s.core cid).coros.isEmpty)
  && (s.core cid).ringAbove p.spad
  && s.gangs.all fun g => !g.cores.contains cid || (p.classS && g.classS && g.part == part)

/-- The eligible cores in CID order. -/
def State.eligibleCores (s : State) (part : Nat) (p : LaunchPacket) : List Nat :=
  (List.range Config.cores).filter (s.eligible part p)

/-- Room for coroutines on a core (R29). -/
def State.room (s : State) (cid : Nat) : Nat := Config.maxCoroutines - (s.core cid).coros.length

/-- The cores of a placement of whole cores: the given ones where they fit the packet, else the lowest eligible (R24). -/
def State.wholeCores (s : State) (part : Nat) (p : LaunchPacket) (place : List Nat) : Option (List Nat) :=
  let ok := fun l : List Nat =>
    l.length == p.ncore && decide (p.nco ≤ Config.maxCoroutines * p.ncore) && decide l.Nodup && l.all (s.eligible part p)
    && (!p.mring || l.all fun c => (List.range 8).all fun i => l.contains (c / 8 * 8 + i))
  let sorted := (List.range Config.cores).filter place.contains
  if ok sorted then some sorted
  else
    let es := s.eligibleCores part p
    let es := if p.mring then es.filter fun c => (List.range 8).all fun i => es.contains (c / 8 * 8 + i) else es
    let l := es.take p.ncore
    if ok l then some l else none

/-- The cluster order of a class S placement: the named cluster first, then the others in order (R24). DESIGN CHOICE (log entry 59):
the spec says only that a gang overflows into another cluster that has room; the model takes the others in ascending order. -/
def clusterOrder (place : List Nat) : List Nat :=
  let all := List.range (Config.cores / 8)
  match place.head? with
  | some c => (c / 8) :: all.filter (· != c / 8)
  | none => all

/-- The cores of a class S placement and the core of each coroutine (R24). -/
def State.sharedCores (s : State) (part : Nat) (p : LaunchPacket) (place : List Nat) : Option (List Nat × List Nat) :=
  let es := s.eligibleCores part p
  let fill := fun (acc : List Nat × List Nat) cl =>
    if acc.2.length ≥ p.nco then acc
    else
      let cs := es.filter fun c => c / 8 == cl && s.room c != 0
      let seq := (List.range (min p.nco Config.maxCoroutines)).flatMap fun r => cs.filter fun c => decide (r < s.room c)
      if cs.isEmpty then acc else (acc.1 ++ cs, acc.2 ++ seq.take (p.nco - acc.2.length))
  let r := (clusterOrder place).foldl fill ([], [])
  if r.2.length = p.nco then some ((List.range Config.cores).filter r.1.contains, r.2) else none

/-- The cores and the coroutines' cores that a packet is granted, or nothing while it cannot be placed (R317). -/
def State.placement (s : State) (part : Nat) (p : LaunchPacket) (place : List Nat) : Option (List Nat × List Nat) :=
  if p.classS then s.sharedCores part p place
  else (s.wholeCores part p place).map fun cs => (cs, (List.range p.nco).map fun g => cs.getD (g % cs.length) 0)

/-- Zero-fill an allocation, every full/empty bit full (R42, R317). -/
def Mem.clearBelow (m : Mem) (n : Nat) : Mem :=
  { cells := m.cells.filter fun c => decide (n ≤ c.1), empty := m.empty.filter fun w => decide (n ≤ 8 * w),
    poison := m.poison.filter fun w => decide (n ≤ 8 * w) }

/-- THE START OF A GANG (R21, R317): its record, its allocations and its coroutines, each with the registers of `ctx`; where a core has
no room for a context, that core (R29). -/
def State.startGang (s : State) (q qsb part : Nat) (p : LaunchPacket) (cores each : List Nat) (ctx : Ctx) : Except Nat State :=
  let g : Gang :=
    { gid := p.gid, part := part, classS := p.classS, cores := cores, kc := p.kc, spad := p.spad, heapBase := p.heapBase,
      heapSize := p.heapSize, heap := [], nextCoid := 0, prio := p.bpri, ending := false, notify := p.notify, mring := p.mring,
      quad := q, qsb := qsb, donek := word p.donek,
      job := if p.job then some (p.entry, ctx.vn, p.kc, decide (ctx.m)) else none, cancelled := false, keys := [] }
  let s : State := { s with gangs := s.gangs ++ [g] }
  let s := cores.foldl (fun t c => t.onCore c fun k => { k.setKc p.kc with spad := k.spad.clearBelow (p.spad * 65536) }) s
  each.foldlM (fun t c =>
    match t.gangs.find? fun k => k.gid == p.gid && k.part == part with
    | some g => (match t.create g c p.bpri ctx none with | .ok u => .ok u | .error _ => .error c)
    | none => .ok t) s

/-! ### Queue state blocks (R309 to R311) -/

/-- A read of the launch processor under the firmware root (R332): the value, or the failing address. -/
def State.fwNum (s : State) (q va n : Nat) : Except Nat Nat := s.readRun (s.firmwareRoot q) false va n

/-- A write of the launch processor under the firmware root. -/
def State.fwPut (s : State) (q va n v : Nat) : State :=
  match s.pagedSpot (s.firmwareRoot q) false true va n with
  | .ok p => s.putOwn (p.locs.zip (bytesOf n v))
  | .error _ => s

/-- An 8-byte word of a QSB; 0 where it cannot be read. -/
def State.qword (s : State) (q qsb off : Nat) : Nat := match s.fwNum q (qsb + off) 8 with | .ok v => v | .error _ => 0

/-- The slot of a queue. -/
def State.slotOf (s : State) (q qsb : Nat) : Option Slot := (s.quad q).slots.find? (·.qsb == qsb)

/-- Change a slot. -/
def State.onSlot (s : State) (q qsb : Nat) (f : Slot → Slot) : State :=
  s.onQuad q fun k => { k with slots := k.slots.map fun e => if e.qsb == qsb then f e else e }

/-- STATE of a queue: its slot's, else the QSB's (R309, R311). -/
def State.queueState (s : State) (q qsb : Nat) : Nat :=
  match s.slotOf q qsb with
  | some e => bits e.qctl.toNat 56 54
  | none => bits (s.qword q qsb 8) 56 54

/-- RDIDX of a queue. -/
def State.rdidx (s : State) (q qsb : Nat) : Nat := match s.slotOf q qsb with | some e => e.rdidx | none => s.qword q qsb 0x20

/-- The running launches of a queue, oldest first. -/
def State.running (s : State) (q qsb : Nat) : List Gang := s.gangs.filter fun g => g.quad == q && g.qsb == qsb

/-- RUNG (R310). -/
def State.rung (s : State) (q qsb : Nat) : Nat :=
  let l := s.running q qsb
  (match l.head? with | some g => g.gid * 2 ^ 32 | none => 0) + l.length % 65536

/-- Replace STATE of a QCTL word. -/
def withState (qctl st : Nat) : Nat := qctl - bits qctl 56 54 * 2 ^ 54 + st * 2 ^ 54

/-- Put a bit of the queue bitmaps, once QBMBASE has been written (R309). -/
def State.bitmap (s : State) (q qidx : Nat) (faultBit b : Bool) : State :=
  if !(s.quad q).qbmSet then s
  else
    let a := (s.quad q).qbmbase.toNat + (if faultBit then 512 else 0) + qidx / 64 * 8
    match s.fwNum q a 8 with
    | .error _ => s
    | .ok w => s.fwPut q a 8 (setBit (word w) (qidx % 64) b).toNat

/-- QIDX of a queue. -/
def State.qidx (s : State) (q qsb : Nat) : Nat := bits (s.qword q qsb 8) 11 0

/-- A queue written back in STATE `st` out of STATE `old` keeps its FTOKEN: WAITING, XFAULT, or one of them FROZEN (R310, R328). -/
def keepsFtoken (old st : Nat) : Bool := st == 2 || st == 3 || (st == 6 && (old == 2 || old == 3))

/-- THE WRITE-BACK of a slotted queue with the STATE it takes; its slot is freed (R309), and FTOKEN is 0 but in WAITING and XFAULT
(R310). -/
def State.writeBack (s : State) (q qsb st : Nat) : State :=
  let keep := keepsFtoken (s.queueState q qsb) st
  let w := withState (s.qword q qsb 8) st
  match s.slotOf q qsb with
  | none =>
    let s := s.fwPut q (qsb + 8) 8 w
    if keep then s else s.fwPut q (qsb + 0x50) 8 0
  | some e =>
    let s := s.fwPut q (qsb + 8) 8 (setBit (word w) 61 false).toNat
    let s := s.fwPut q (qsb + 0x20) 8 e.rdidx
    let s := s.fwPut q (qsb + 0x38) 8 e.wdcount
    let s := s.fwPut q (qsb + 0x40) 8 (s.rung q qsb)
    let s := s.fwPut q (qsb + 0x48) 8 e.done
    let s := s.fwPut q (qsb + 0x50) 8 (if keep then e.ftoken.toNat else 0)
    let s := s.fwPut q (qsb + 0x58) 8 e.fval.toNat
    s.onQuad q fun k => { k with slots := k.slots.filter (·.qsb != qsb) }

/-- A queue becomes slotted, if a slot is free (R309). -/
def State.takeSlot (s : State) (q qsb : Nat) : Option State :=
  if (s.slotOf q qsb).isSome then some s
  else if (s.quad q).slots.length ≥ Config.maxSlots then none
  else
    let w := setBit (word (withState (s.qword q qsb 8) 1)) 61 true
    let e : Slot := { qsb := qsb, qctl := w, rdidx := s.qword q qsb 0x20, wdcount := s.qword q qsb 0x38,
                      done := s.qword q qsb 0x48, ftoken := 0, fval := word (s.qword q qsb 0x58) }
    some ((s.fwPut q (qsb + 8) 8 w.toNat).onQuad q fun k => { k with slots := k.slots ++ [e] })

/-- A queue leaves service in STATE `st` with FVAL, its fault bit and an event (R309, R314, R319, R320, R322). -/
def State.stopQueue (s : State) (q qsb st fval : Nat) (e : FwEvent) : State :=
  let s := match s.takeSlot q qsb with | some t => t | none => s
  let s := s.onSlot q qsb fun k => { k with fval := word fval }
  let s := s.writeBack q qsb st
  let s := s.fwPut q (qsb + 0x58) 8 fval
  (s.bitmap q (s.qidx q qsb) true true).postEvent q e

/-- A QSB that describes a queue (R311). -/
def qsbOk (qctl rsize : Nat) : Bool :=
  bit qctl 63 && bits qctl 60 57 == 0 && bits qctl 46 12 == 0 && bits qctl 56 54 != 7
  && decide (2 ≤ rsize ∧ rsize ≤ 2 ^ 20) && rsize == 2 ^ Nat.log2 rsize

/-- The device place of an address of the firmware core, or the address itself where it has none. -/
def State.fwPlace (s : State) (q va : Nat) : Nat :=
  match s.pagedSpot (s.firmwareRoot q) false false va 8 with
  | .ok p => (match p.locs.head? with | some (.dev a) => a | _ => va)
  | .error _ => va

/-- Event QSB_BAD for a link with a value, once (R311, R312). -/
def State.badLink (s : State) (q link value arg : Nat) : State :=
  let r := (link, value, s.fwPlace q (value + 8))
  if (s.quad q).reported.any fun x => x.1 == link && x.2.1 == value then s
  else (s.onQuad q fun k => { k with reported := k.reported ++ [r] }).postEvent q { code := 5, arg := arg, arg2 := 0 }

/-- The queues of a run list in list order, from a link's value; a bad QSB is passed over and reported, an unreadable one
ends the list (R311, R312). The flag says that a report waits for room in the event queue (R326). -/
def State.listFrom (s : State) (q : Nat) : Nat → Nat → Nat → List Nat × State × Bool
  | 0, _, _ => ([], s, false)
  | n + 1, link, a =>
    if a = 0 then ([], s, false)
    else
      match s.fwNum q a 256 with
      | .error f => let t := s.badLink q link a f; if s.grew t then ([], s, true) else ([], t, false)
      | .ok x =>
        let ok := qsbOk (imageNum x 8 8) (imageNum x 0x18 8)
        let t := if ok then s else s.badLink q link a a
        if s.grew t then ([], s, true)
        else
          let r := t.listFrom q n (t.fwPlace q a) (imageNum x 0 8)
          (if ok then a :: r.1 else r.1, r.2)

/-- The link number of RLHEADp among the reported links. -/
def headLink (p : Nat) : Nat := 2 ^ 60 + p

/-- The run list of a priority (R312). -/
def State.runList (s : State) (q p : Nat) : List Nat × State × Bool :=
  let k := s.quad q
  s.listFrom q 4096 (headLink p) (if h : p < 8 then k.rlhead[p].toNat else 0)

/-- What a queue's next packet does at a turn. -/
inductive Taken where
  /-- One packet was started or consumed. -/
  | started (s : State)
  /-- The queue cannot start a packet now. -/
  | blocked (s : State)

/-- A freeze of a partition is in progress (R328). -/
def State.freezes (s : State) (part : Nat) : Bool := s.freezing.any fun f => bit f.mask part

/-- The queue's own state and its partition's allow a start (R311, R326, R328). -/
def State.startable (s : State) (q qsb : Nat) : Bool :=
  let w := s.qword q qsb 8
  let st := s.queueState q qsb
  st ≤ 1 && !bit w 62 && !bit (s.quad q).parthalt (bits w 50 47) && !s.freezes (bits w 50 47)

/-- Consume the packet at hand: RDIDX + 1, the queue ACTIVE (R317, R320). -/
def State.consume (s : State) (q qsb : Nat) : State :=
  s.onSlot q qsb fun e => { e with rdidx := e.rdidx + 1, qctl := word (withState e.qctl.toNat 1), ftoken := 0 }

/-- Start a LAUNCH or JOB (R317 to R319); a target that cannot be read stops the queue as R319 states (log entry 115). It waits while a core
has no room for a new context (R29, R307; log entry 60). -/
def State.startLaunch (s : State) (q qsb part rd : Nat) (p : LaunchPacket) (place : List Nat) : Taken :=
  let root := (s.rootsOf part).1
  let run := s.running q qsb
  if !(run.isEmpty || p.ovl) then .blocked s
  else
    let x : Except Nat (List Loc) := if p.job then
        match s.readRun root true p.entry 0x200 with
        | .error f => .error f
        | .ok h => s.runSpots root true p.entry
            (0x200 + variableBytes 8 (bits h 47 46) (bits h 45 44) (imageNum h 0x130 8) (bit h 42))
      else s.runSpots root true p.entry 4
    match x with
    | .error f => .blocked (s.stopQueue q qsb 3 f { code := 0x0C, arg := qsb, arg2 := f })
    | .ok ls =>
      if p.job && !imageOk (s.numAt ls) p.kc then .blocked (s.stopQueue q qsb 5 rd { code := 4, arg := qsb, arg2 := rd })
      else
        match s.placement part p place with
        | none => .blocked s
        | some (cores, each) =>
          let old := s
          match s.takeSlot q qsb with
          | none => .blocked s
          | some s =>
            let s := if run.isEmpty then s.onSlot q qsb fun e => { e with wdcount := 0 } else s
            let ctx := if p.job then s.imageStart ls else { Ctx.fresh p.vn with pc := word p.entry }
            match (s.consume q qsb).startGang q qsb part p cores each ctx with
            | .ok t => .started t
            | .error c => .blocked (old.noRoom c ((Coro.new p.gid 0 0 p.bpri 0 ctx).recordBytes p.kc))

/-- A WAIT asks at the home unit of its token's word, which lies at another endpoint (R91, R320). -/
def State.askWait (s : State) (q part : Nat) (tok : Word) : State :=
  s.sendAs (2048 + q) part (tokenEp tok) (.register tok) (.register (2048 + q) (tokenGran tok))

/-- A WAIT's word that cannot be reached (R320): a GRAN that names none halts the queue, and a page that is not resident puts it
into XFAULT with its token. -/
def State.waitFault (s : State) (q qsb rd : Nat) (tok : Word) (t : Trap) : State :=
  if t.cause = .addrHole then s.stopQueue q qsb 5 rd { code := 3, arg := qsb, arg2 := rd }
  else (s.onSlot q qsb fun e => { e with ftoken := tok }).stopQueue q qsb 3 t.val.toNat { code := 2, arg := qsb, arg2 := t.val.toNat }

/-- Take a WAIT (R320): the queue waits with its slot, registered at the word's home unit. -/
def State.startWait (s : State) (q qsb part rd : Nat) (tok : Word) : Taken :=
  if !granNames (tokenGran tok) then .blocked (s.waitFault q qsb rd tok { cause := .addrHole })
  else
    match s.takeSlot q qsb with
    | none => .blocked s
    | some s =>
      let waiting := s.onSlot q qsb fun e => { e with qctl := word (withState e.qctl.toNat 2), ftoken := tok }
      if tokenEp tok ≠ s.fabric.eid then .blocked (waiting.askWait q part tok)
      else
        match s.granSpot (s.rootsOf part).1 true false (tokenGran tok) with
        | .ok l =>
          if s.syncV l && signalledBy (s.syncGen l) tok then .started (s.consume q qsb)
          else .blocked (waiting.addWaiter { gran := tokenGran tok, loc := l, who := .launch q })
        | .error t => .blocked (s.waitFault q qsb rd tok t)

/-- The next packet of a queue at a turn (R314 to R320). -/
def State.takePacket (s : State) (q qsb : Nat) (place : List Nat) : Taken :=
  if !s.startable q qsb then .blocked s
  else
    let rd := s.rdidx q qsb
    let wr := s.qword q qsb 0x28
    let rsize := s.qword q qsb 0x18
    let n := (wr + 2 ^ 64 - rd) % 2 ^ 64
    if n = 0 then .blocked s
    else if n > rsize then .blocked (s.stopQueue q qsb 5 rd { code := 3, arg := qsb, arg2 := rd })
    else
      let a := s.qword q qsb 0x10 + rd % rsize * 64
      match s.fwNum q a 64 with
      | .error f => .blocked (s.stopQueue q qsb 3 f { code := 0x0C, arg := qsb, arg2 := f })
      | .ok x =>
        let w := (List.range 8).map fun i => imageNum x (8 * i) 8
        if !packetOk w then .blocked (s.stopQueue q qsb 5 rd { code := 3, arg := qsb, arg2 := rd })
        else
          let part := bits (s.qword q qsb 8) 50 47
          match bits (w.getD 0 0) 63 56 with
          | 0 =>
            match s.takeSlot q qsb with
            | none => .blocked s
            | some s => .started (s.consume q qsb)
          | 3 => s.startWait q qsb part rd (word (w.getD 1 0))
          | _ => s.startLaunch q qsb part rd (launchPacket w) place

/-- The bitmaps show a queue: its pending bit while it has an unconsumed packet, its fault bit clear once it is IDLE (R309). -/
def State.showQueue (s : State) (q qsb : Nat) : State :=
  let i := s.qidx q qsb
  let t := s.bitmap q i false (s.rdidx q qsb != s.qword q qsb 0x28)
  if t.queueState q qsb = 0 then t.bitmap q i true false else t

/-- The walker's care of one queue: an empty queue without a launch becomes IDLE, a removal or an empty queue gives up its slot, and
the bitmaps follow (R309, R311, R313). -/
def State.tend (s : State) (q qsb : Nat) : State :=
  let w := s.qword q qsb 8
  let t := match s.slotOf q qsb with
    | none => s
    | some e =>
      let st := bits e.qctl.toNat 56 54
      if st = 1 ∧ s.rdidx q qsb = s.qword q qsb 0x28 ∧ (s.running q qsb).isEmpty then s.writeBack q qsb 0
      else if bit w 62 then s.writeBack q qsb st
      else s
  t.showQueue q qsb

/-- The queues of a list in the order of a turn: after the queue served before, wrapping (R312). -/
def turnOrder (l : List Nat) (served : Nat) : List Nat :=
  if l.contains served then (l.dropWhile (· != served)).drop 1 ++ l.takeWhile (· != served) ++ [served] else l

/-- A turn that goes on: the state, whether it has started a packet, and the priority at which an event of it waits (R326). -/
structure TurnAt where
  state : State
  started : Bool
  waits : Option Nat

/-- One priority of a turn: the first queue that starts a packet is served. -/
def State.turnAt (s : State) (q p : Nat) (place : List Nat) (done : Bool) : TurnAt :=
  let r := s.runList q p
  if r.2.2 then { state := r.2.1, started := done, waits := some p }
  else
    let s := r.1.foldl (fun t a => t.tend q a) r.2.1
    if done then { state := s, started := true, waits := none }
    else
      let k := s.quad q
      let order := turnOrder r.1 (if h : p < 8 then k.served[p] else 0)
      order.foldl (fun (acc : TurnAt) a =>
        if acc.started || acc.waits.isSome then acc
        else match acc.state.takePacket q a place with
          | .blocked t => if acc.state.grew t then { acc with waits := some p } else { acc with state := t }
          | .started t =>
            { acc with
              state := t.onQuad q fun k => if h : p < 8 then { k with served := k.served.set p a } else k
              started := true }) { state := s, started := false, waits := none }

/-- Every queue of a quadrant's run lists. -/
def State.allQueues (s : State) (q : Nat) : List Nat := (List.range 8).flatMap fun p => (s.runList q p).1

/-- WALKER_TURN (R312): one turn over the eight lists, highest first; it completes a pass. A turn whose event finds the queue full
waits where it is, and goes on from there (R326). With RUN = 0 the turn in progress ends, no packet starts, and the bitmaps go on showing
the queues (R309, R326). -/
def execWalkerTurn (q : Nat) (place : List Nat) (s : State) : Host.Outcome State Fault Refusal :=
  if !(s.quad q).run then
    .next (((s.allQueues q).foldl (fun t a => t.showQueue q a) s).onQuad q fun k => { k with idle := true, turn := none })
  else
    let at_ := ((s.quad q).turn).getD (7, false)
    let r := (List.range (at_.1 + 1)).reverse.foldl (fun (acc : TurnAt) p =>
      if acc.waits.isSome then acc else acc.state.turnAt q p place acc.started) { state := s, started := at_.2, waits := none }
    .next (r.state.onQuad q fun k => match r.waits with
      | some p => { k with turn := some (p, r.started) }
      | none => { k with turn := none, epoch := (k.epoch + 1) % 2 ^ 64 })

/-- The answer of another endpoint to the WAITs of a launch processor on its word (R320): V and GEN are tested as the walker
tests a word of this device. -/
def State.answerWaits (s : State) (q ep gran : Nat) (v : Bool) (gen : Nat) : State :=
  (s.quad q).slots.foldl (fun t e =>
    if bits e.qctl.toNat 56 54 ≠ 2 ∨ tokenEp e.ftoken ≠ ep ∨ tokenGran e.ftoken ≠ gran then t
    else if !v then t.stopQueue q e.qsb 5 e.rdidx { code := 3, arg := e.qsb, arg2 := e.rdidx }
    else if signalledBy gen e.ftoken then t.consume q e.qsb
    else t) s

/-- A refused registration of a launch processor at another endpoint (R399): the word of its WAITs is not resident there, and their queues
fault as at a word of this device (R320). -/
def State.refusedWaits (s : State) (q ep gran : Nat) : State :=
  (s.quad q).slots.foldl (fun t e =>
    if bits e.qctl.toNat 56 54 ≠ 2 ∨ tokenEp e.ftoken ≠ ep ∨ tokenGran e.ftoken ≠ gran then t
    else t.waitFault q e.qsb e.rdidx e.ftoken { cause := .xlateFault, val := granAddr gran }) s

/-- WAIT_SIGNALLED (R320): on a wake notice for a granule the walker tests the tokens its queues wait for; a word
found uninitialised halts its queue (R346), and one that no longer translates faults as at the WAIT. A walker whose event finds the queue
full waits (R326). -/
def execWaitSignalled (q n : Nat) (s : State) : Host.Outcome State Fault Refusal :=
  .next <| s.sourced (.waitSignalled q n) ((s.quad q).slots.foldl (fun t e =>
    if bits e.qctl.toNat 56 54 ≠ 2 ∨ tokenGran e.ftoken ≠ n then t
    else if tokenEp e.ftoken ≠ t.fabric.eid then t
    else
      let part := bits (t.qword q e.qsb 8) 50 47
      match t.granSpot (t.rootsOf part).1 true false n with
      | .error x => t.waitFault q e.qsb e.rdidx e.ftoken x
      | .ok l =>
        if !t.syncV l then t.stopQueue q e.qsb 5 e.rdidx { code := 3, arg := e.qsb, arg2 := e.rdidx }
        else if signalledBy (t.syncGen l) e.ftoken then t.consume q e.qsb
        else t.addWaiter { gran := n, loc := l, who := .launch q }) s)

/-- WATCHDOG (R322): the n-th slot's count reaches a non-zero WDLIMIT while a launch of its queue runs. -/
def execWatchdog (q n : Nat) (s : State) : Host.Outcome State Fault Refusal :=
  match (s.quad q).slots[n]? with
  | none => .next s
  | some e =>
    let limit := s.qword q e.qsb 0x30
    match s.running q e.qsb with
    | [] => .next s
    | g :: _ =>
      if limit = 0 ∨ e.wdcount < limit ∨ s.queueState q e.qsb = 4 then .next s
      else
        let old := s
        let s := s.onSlot q e.qsb fun k => { k with wdcount := limit }
        .next (old.sourced (.watchdog q n) (s.stopQueue q e.qsb 4 e.fval.toNat { code := 1, arg := e.qsb, arg2 := g.gid }))

/-- The completion of a gang for its queue: DONE and RUNG, and the watchdog starts again (R318, R322); the gang's record is
already gone. DONEK's word receives 1 from the launch processor. -/
def State.launchDone (s : State) (g : Gang) : State :=
  let s := match s.slotOf g.quad g.qsb with
    | some _ => s.onSlot g.quad g.qsb fun e => { e with done := (e.done + 1) % 2 ^ 64, wdcount := 0 }
    | none =>
      let s := s.fwPut g.quad (g.qsb + 0x48) 8 ((s.qword g.quad g.qsb 0x48 + 1) % 2 ^ 64)
      s.fwPut g.quad (g.qsb + 0x40) 8 (s.rung g.quad g.qsb)
  if g.donek = 0 then s else s.contribute g.donek 1 (.launch g.quad) g.part (s.rootsOf g.part).1 true 0

/-- TIMER (R326): FTIMER reaches a non-zero FTCMP; once per write of FTCMP. -/
def execTimer (q : Nat) (s : State) : Host.Outcome State Fault Refusal :=
  let k := s.quad q
  if k.armed ∧ k.ftcmp ≠ 0 ∧ k.ftcmp.toNat ≤ k.ftimer then
    .next (s.sourced (.timer q) ((s.onQuad q fun k => { k with armed := false }).postEvent q { code := 7, arg := 0, arg2 := 0 }))
  else .next s

/-! ### The end of a JOB (R318) -/

/-- Write an n-byte number at a paged address under a root, page by page, its words clean or poisoned (R360); a page that cannot be written
keeps its bytes. -/
def State.writeRun (s : State) (root va n x : Nat) (bad : Nat → Bool) : State :=
  (List.range (n / 0x10000 + 2)).foldl (fun t i =>
    let a := if i = 0 then va else va / 0x10000 * 0x10000 + i * 0x10000
    let e := min (va + n) (va / 0x10000 * 0x10000 + (i + 1) * 0x10000)
    if e ≤ a then t
    else match t.pagedSpot root true true a (e - a) with
      | .ok p => if p.tiers.isEmpty then t.putWords p.locs (x / 256 ^ (a - va)) (fun o => bad (a - va + o)) else t
      | .error _ => t) s

/-- THE WRITE-BACK OF A JOB into its image, from the registers of its coroutine as it retires (R157, R318). -/
def State.jobBack (s : State) (g : Gang) (c : Ctx) : State :=
  match g.job with
  | none => s
  | some (va, _, kc, _) =>
    let root := (s.rootsOf g.part).1
    let rd := fun a => match s.readRun root true (va + a) 8 with | .ok v => v | .error _ => 0
    let vn := bits (rd 0) 47 46
    let live := rd 0x130
    let ms := bit (rd 0) 42
    let vb := imageVb vn kc
    let m := vb / 4
    let marks := c.poison.filterMap (imageOffset (rd 0) live)
    let put := fun (t : State) (e : Nat × Nat × Nat) => t.writeRun root (va + e.1) e.2.1 e.2.2 fun o => marks.contains (e.1 + o)
    let s := ((List.range 31).map fun i => (0x10 + 8 * i, 8, (c.x.toList.getD (i + 1) 0).toNat)).foldl put s
    let s := [(0x108, 8, c.vl), (0x110, 8, c.tl), (0x118, 8, c.fcsr.toNat), (0x120, 8, c.lps.toNat), (0x128, 8, c.srseed.toNat),
              (0x138, 8, c.vstart), (0x140, 8, c.cbyp), (0x148, 8, flag c.tiernote)].foldl put s
    let regs := 0x200 + 8 * m
    let tiles := regs + liveCount live (regCount vn) * vb
    let tb := 16384 / 2 ^ kc
    let s := if c.vn ≠ vn then s
      else
        let s := ((List.range 8).map fun i => (0x200 + i * m, m, c.kreg i)).foldl put s
        (((List.range (regCount vn)).filter (bit live)).map fun i =>
          (regs + liveRank live i * vb, vb, c.v.toList.getD i 0)).foldl put s
    if ms && c.m then
      put (((List.range 4).map fun i => (tiles + i * tb, tb, c.treg i)).foldl put s) (tiles + 4 * tb, tb, c.bl)
    else s

/-- A coroutine of a gang retires with its registers: the one coroutine that a JOB creates, COID 0, writes its image back (R21,
R318). -/
def State.jobEnd (s : State) (g : Option Gang) (coid : Nat) (c : Ctx) : State :=
  match g with
  | some g => if coid = 0 then s.jobBack g c else s
  | none => s

end Sys2Proof.Machine
end

