-- ==== Sys2Proof/Machine/Csr.lean ====
section
/-! DEFINITION. Control and status registers: their values, their writes, the CSR instructions and the writes that are
steps of their own (R4, R5, R47, R51 to R57, R174, R291 to R296, R304, R325, R326). -/

namespace Sys2Proof.Machine

/-! ### Which registers exist -/

/-- The user CSRs (R51). -/
def userCsr (n : Nat) : Bool :=
  decide (0x10 ≤ n ∧ n ≤ 0x1A) || decide (0x20 ≤ n ∧ n ≤ 0x31) || decide (0x40 ≤ n ∧ n ≤ 0x44)

/-- The trap CSRs of a front end (R292). -/
def trapCsr (n : Nat) : Bool := decide (0x100 ≤ n ∧ n ≤ 0x10B)

/-- The supervisor CSRs of a core (R292). -/
def coreCsr (n : Nat) : Bool :=
  n == 0x110 || n == 0x111 || decide (0x120 ≤ n ∧ n ≤ 0x126) || n == 0x130 || n == 0x131

/-- The firmware CSRs (R325). -/
def firmwareCsr (n : Nat) : Bool :=
  n == 0x200 || n == 0x201 || decide (0x208 ≤ n ∧ n ≤ 0x213) || n == 0x220 || n == 0x221

/-- The access check of a CSR number at a level: none when it may be accessed (R51, R174, R291, R323, R325). -/
def csrCheck (level : Level) (n : Nat) : Option Trap :=
  let priv : Trap := { cause := .privCsr, val := word n }
  let bad : Trap := { cause := .illegal }
  match level with
  | .user => if n ≥ 0x100 then some priv else if userCsr n then none else some bad
  | .supervisor => if n ≥ 0x200 then some priv else if userCsr n || trapCsr n || coreCsr n then none else some bad
  | .firmware => if userCsr n || trapCsr n || firmwareCsr n then none else some bad

/-! ### Reading -/

/-- FMASK as its CSR shows it (R55). -/
def fmaskCsr (x : Nat) : Word := if x = 0 then 0 else word (2 ^ 63 + trailingZeros16 x)
where
  /-- The index of the lowest set bit, below 65,536. -/
  trailingZeros16 (x : Nat) : Nat := Nat.log2 (x &&& (2 ^ 65536 - x % 2 ^ 65536))

/-- INBOXS of a core (R57). -/
def Core.inboxs (c : Core) : Word :=
  let msgs := (c.inbox.filter fun r => !r.pad).length
  word (flag (!c.ovf.isEmpty) * 2 ^ 63 + flag (!c.holds.isEmpty) * 2 ^ 62 + msgs % 65536 * 2 ^ 16 + c.free % 65536)

/-- SSTATUS as it reads: SBQN counts the suspended blocks, up to 4, EVHART is the core's (R294). -/
def State.sstatus (s : State) : Word :=
  let ev := match s.cid? with | some c => (s.core c).evhart | none => 0
  s.hart.sstatus ||| word (min 4 s.hart.suspended.length * 2 ^ 55 + ev)

/-- The value of a user CSR (R51 to R57). An endpoint without an ID shows EID 0 (log entry 67). DESIGN CHOICE (log entry 91): the spec gives
no value of COID and GID where no coroutine is on the hart, nor of CID and INBOXS on a firmware core; they read as 0, and INBOXS as on a
core after reset. -/
def State.userCsrValue (s : State) (n : Nat) : Word :=
  let c := s.hart.ctx
  let core := match s.cid? with | some k => s.core k | none => Core.reset 0
  let who := s.hart.occ.getD (0, 0)
  match n with
  | 0x10 => word c.vl
  | 0x11 => word c.tl
  | 0x12 => word (flag c.m * 256 + c.vn)
  | 0x13 => word s.kc
  | 0x14 => word s.rows
  | 0x15 => word c.cbyp
  | 0x16 => c.fcsr
  | 0x17 => fmaskCsr c.fmask
  | 0x18 => word c.vstart
  | 0x19 => c.lps
  | 0x1A => c.srseed
  | 0x30 => core.inboxs
  | 0x31 => truth c.tiernote
  | 0x40 => match s.focus with | .hart k _ => word (s.core k).cycle | .fw q => word (s.quad q).ftimer
  | 0x41 => word who.2
  | 0x42 => word who.1
  | 0x43 => word (s.cid?.getD 0)
  | 0x44 => word (s.fabric.eid % 8192)
  | n => if 0x20 ≤ n ∧ n ≤ 0x2F then word (s.groupUnits (n - 0x20)) else 0
where
  truth (b : Bool) : Word := if b then 1 else 0

/-- The value of a supervisor CSR (R292 to R296, R304). -/
def State.superCsrValue (s : State) (n : Nat) : Word :=
  let h := s.hart
  let c := s.core s.cid
  match n with
  | 0x100 => s.sstatus
  | 0x101 => h.stvec
  | 0x102 => h.sepc
  | 0x103 => h.scause
  | 0x104 => h.stval
  | 0x105 => h.stval2
  | 0x106 => h.sblka
  | 0x107 => h.sword
  | 0x108 => h.sscratch[0]
  | 0x109 => h.sscratch[1]
  | 0x10A => h.sscratch[2]
  | 0x10B => h.sscratch[3]
  | 0x110 => word c.kc
  | 0x111 => word c.quantum
  | 0x120 => c.mvtbase
  | 0x121 => word (c.inboxUnits * 2 ^ 32 + c.inboxOff * 64)
  | 0x122 => c.ovfbase
  | 0x123 => word (c.ovfSize * 2 ^ 32 + c.ovfQuota)
  | 0x124 => c.ctxbase
  | 0x125 => c.ctxsize
  | 0x130 => word (flag c.ctxBusy * 2 ^ 60 + flag c.ctxErr * 2 ^ 59 + c.ctxGid * 2 ^ 32 + c.ctxCoid)
  | 0x131 => word c.ctxarg
  | _ => 0

/-- FEVQ's value for an event (R326). -/
def fevqOf (e : FwEvent) : Word := word (2 ^ 63 + e.code % 256 * 2 ^ 48 + e.arg % 2 ^ 48)

/-- The value of a firmware CSR (R326). A read of FEVQ also removes its event. -/
def State.fwCsrValue (s : State) (q n : Nat) : Word :=
  let k := s.quad q
  match n with
  | 0x200 => match k.events with | e :: _ => fevqOf e | [] => 0
  | 0x201 => k.fevarg
  | 0x210 => word k.epoch
  | 0x211 => k.qbmbase
  | 0x212 => word (flag k.run + 2 * flag k.idle)
  | 0x213 => word k.parthalt
  | 0x220 => word k.ftimer
  | 0x221 => k.ftcmp
  | n => if 0x208 ≤ n ∧ n ≤ 0x20F then k.rlhead.toList.getD (n - 0x208) 0 else 0

/-- The value a read of a CSR returns. -/
def State.csrValue (s : State) (n : Nat) : Word :=
  if n < 0x100 then s.userCsrValue n
  else if n < 0x200 then s.superCsrValue n
  else match s.focus with
    | .fw q => s.fwCsrValue q n
    | .hart _ _ => 0

/-- A read of FEVQ removes the head event, whose second argument FEVARG shows; a waiting source's event takes its place
(R326). -/
def State.popEvent (s : State) (q : Nat) : State :=
  s.onQuad q fun k =>
    match k.events with
    | [] => k
    | e :: r => { k with events := r ++ k.waiting.take 1, waiting := k.waiting.drop 1, fevarg := word e.arg2 }

/-- A block in flight holds a VLDFF, which writes VL (R218). -/
def Hart.vlPending (h : Hart) : Bool := h.blocks.any fun b => (b.words.drop b.idx).any fun w => w.toNat / 2 ^ 56 == 0x83

/-- The CSR reads that wait for the earlier blocks (R51, R218). -/
def State.csrWaits (s : State) (n : Nat) : Bool :=
  (n == 0x16 || n == 0x17 || n == 0x18) && s.hart.blocks != [] || n == 0x10 && s.hart.vlPending

/-! ### Writing -/

/-- The registers after a change of VCFG.VN (R47). -/
def Ctx.reshape (c : Ctx) (vn : Nat) : Ctx :=
  { c with vn := vn, v := Vector.replicate 64 0, k := Vector.replicate 8 0, fmask := 0, vl := 0, vstart := 0,
           poison := c.poison.filter fun r => r.kind != 0 && r.kind != 1 && r != vlMark }

/-- A VCFG write (R47, R53, R324). -/
def State.writeVcfg (s : State) (v : Word) : Except Stop State :=
  if s.hart.blocks ≠ [] ∨ s.regCopies ≠ [] then .error .wait
  else
    let vn := v.toNat % 4
    if s.isFw ∨ vn = s.hart.ctx.vn then .ok s else .ok (s.setCtx (s.hart.ctx.reshape vn))

/-- An FMASK write clears every bit (R55). -/
def State.writeFmask (s : State) : State := s.setCtx { s.hart.ctx with fmask := 0 }

/-- A store to SLPART (R293). DESIGN CHOICE (log entry 60): it may change the hart count of a gang's core that holds no coroutine,
and coroutines created there later run at it (R24). -/
def Core.writeSlpart (c : Core) (v : Word) : Core :=
  if c.coros.isEmpty then (if c.kc = v.toNat % 4 then c else c.setKc (v.toNat % 4)) else c

/-- The ring's units would lie in a gang's allocation on the core (R296). -/
def State.ringInGang (s : State) (cid off : Nat) : Bool :=
  s.gangs.any fun g => g.cores.contains cid && decide (off * 64 < g.spad * 65536)

/-- The inbox or the overflow ring holds a message (R296). -/
def Core.holdsMessages (c : Core) : Bool := (c.inbox.any fun r => !r.pad) || !c.ovf.isEmpty

/-- An INBOXCFG write (an illegal UNITS keeps the field, R4) takes effect only where R296 lets it, and then releases the allowance holds (R96); held
messages of the device go on (R95). -/
def State.writeInboxcfg (s : State) (cid : Nat) (v : Word) : State :=
  let c := s.core cid
  let u := bits v.toNat 46 32
  let units := if u = 0 ∨ (8 ≤ u ∧ u ≤ 16384) then u else c.inboxUnits
  let off := bits v.toNat 19 6
  let ok := !c.holdsMessages && (units == 0 || decide ((off + units) * 64 ≤ Config.spadBytes) && !s.ringInGang cid off)
  if ok then
    ((s.setCore cid { c with inboxUnits := units, inboxOff := off, inbox := [], inboxW := 0 }).releaseHolds cid).kickInbox cid
  else s

/-- An OVFCFG write takes effect only where R296 lets it, and then releases the allowance holds (R96); held
messages of the device go on (R95). -/
def State.writeOvfcfg (s : State) (cid : Nat) (v : Word) : State :=
  let c := s.core cid
  let size := bits v.toNat 55 32
  let quota := bits v.toNat 23 0
  if !c.holdsMessages ∧ quota ≤ size then
    ((s.setCore cid { c with ovfSize := size, ovfQuota := quota, ovfW := 0 }).releaseHolds cid).kickInbox cid
  else s

/-- An OVFBASE write (R95, R96, R293). -/
def State.writeOvfbase (s : State) (cid : Nat) (v : Word) : State :=
  ((s.onCore cid fun c => { c with ovfbase := v &&& 0x01FFFFFFFFFFFFC0 }).releaseHolds cid).kickInbox cid

/-- INBOXDROP.HEAD := 1 releases the earliest record whose handler does not exist (R293). -/
def State.dropHead (s : State) (cid : Nat) (v : Word) : State :=
  if !v.getLsbD 0 then s
  else
    let c := s.core cid
    match c.inbox.find? fun r => !r.pad && !r.made with
    | none => s
    | some r =>
      let mark := fun k : InboxRec => if k.unit == r.unit && !k.pad then { k with made := true } else k
      let c : Core := { c with inbox := c.inbox.map mark }
      (s.setCore cid (c.release r.unit)).kickInbox cid

/-- The command a CTXOP write starts (R304): it posts the operation's own event. -/
def State.writeCtxop (s : State) (cid : Nat) (v : Word) : State :=
  let gid := bits v.toNat 47 32
  let coid := bits v.toNat 31 0
  let op := bits v.toNat 63 61
  if op = 0 ∨ op > 4 then s
  else
    let s := s.onCore cid fun c => { c with ctxGid := gid, ctxCoid := coid, ctxBusy := true, ctxErr := false }
    s.later (match op with
      | 1 => .preempt cid gid coid
      | 2 => .restore cid gid coid
      | 3 => .move cid gid coid
      | _ => .discard cid gid coid)

/-- A write of SSTATUS keeps its read-only fields (R294); INTRAP = 0 lets a trap that pended be taken (R298). -/
def State.writeSstatus (s : State) (v : Word) : State :=
  let rw : Word := 0xCC30000000000000
  let s := s.onFocus fun h =>
    { h with sstatus := (h.sstatus &&& ~~~rw) ||| (v &&& rw),
             pended := h.pended || (statusBit h.sstatus inTrapBit && !statusBit v inTrapBit && s.pending) }
  match s.cid? with
  | some cid => s.onCore cid fun c => if v.toNat % 8 < c.harts then { c with evhart := v.toNat % 8 } else c
  | none => s

/-- A write of a front end's other trap CSR (R293, R295). -/
def Hart.writeTrapCsr (h : Hart) (n : Nat) (v : Word) : Hart :=
  match n with
  | 0x101 => { h with stvec := v &&& 0x01FFFFFFFFFFFFFC }
  | 0x102 => { h with sepc := v }
  | 0x103 => { h with scause := v &&& 0xEFC00000FFFFFFFF }
  | 0x104 => { h with stval := v }
  | 0x105 => { h with stval2 := v }
  | 0x106 => { h with sblka := v }
  | 0x107 => { h with sword := v }
  | 0x108 => { h with sscratch := h.sscratch.set 0 v }
  | 0x109 => { h with sscratch := h.sscratch.set 1 v }
  | 0x10A => { h with sscratch := h.sscratch.set 2 v }
  | 0x10B => { h with sscratch := h.sscratch.set 3 v }
  | _ => h

/-- A write of a core's plain CSR (R293). -/
def Core.writePlain (c : Core) (n : Nat) (v : Word) : Core :=
  match n with
  | 0x111 => { c with quantum := v.toNat % 2 ^ 32 }
  | 0x120 => { c with mvtbase := v &&& 0x01FFFFFFFFFFF000 }
  | 0x124 => { c with ctxbase := v &&& 0x01FFFFFFFFFF0000 }
  | 0x125 => { c with ctxsize := v &&& 0x000000FFFFFF0000 }
  | 0x131 => { c with ctxarg := v.toNat % 2048 }
  | _ => c

/-- QBMBASE: the launch processor writes the whole area at the new address (R309). -/
def State.writeQbmbase (s : State) (q : Nat) (v : Word) : State :=
  let a := v &&& 0x01FFFFFFFFFFFC00
  let s := s.onQuad q fun k => { k with qbmbase := a, qbmSet := true }
  let s := (List.range 128).foldl (fun t i => t.fwPut q (a.toNat + 8 * i) 8 0) s
  (s.allQueues q).foldl (fun t qsb =>
    let t := t.showQueue q qsb
    let st := t.queueState q qsb
    t.bitmap q (t.qidx q qsb) true (st == 3 || st == 4 || st == 5)) s

/-- WCTL: the walker runs, or stops once its current turn has ended (R326). -/
def State.writeWctl (s : State) (q : Nat) (v : Word) : State :=
  if v.getLsbD 0 then s.onQuad q fun k => { k with run := true, idle := false }
  else s.onQuad q fun k => { k with run := false }

/-- FTCMP: a write arms the timer again (R326). -/
def State.writeFtcmp (s : State) (q : Nat) (v : Word) : State := s.onQuad q fun k => { k with ftcmp := v, armed := true }

/-- RLHEADp: a new link may be reported again (R311, R326). -/
def State.writeRlhead (s : State) (q p : Nat) (v : Word) : State :=
  s.onQuad q fun k =>
    if h : p < 8 then
      { k with rlhead := k.rlhead.set p (v &&& 0x01FFFFFFFFFFFF00), reported := k.reported.filter fun r => r.1 != headLink p }
    else k

/-- A write of a firmware CSR (R326). -/
def State.writeFwCsr (s : State) (q n : Nat) (v : Word) : State :=
  match n with
  | 0x211 => s.writeQbmbase q v
  | 0x212 => s.writeWctl q v
  | 0x213 => s.onQuad q fun k => { k with parthalt := v.toNat % 65536 }
  | 0x221 => s.writeFtcmp q v
  | n => if 0x208 ≤ n ∧ n ≤ 0x20F then s.writeRlhead q (n - 0x208) v else s

/-- A write of a supervisor CSR (R292 to R296, R304). A new MVTBASE lets a message held at the inbox head go on (R23), and a change of
the context region lets a waiting spill go on (R307). -/
def State.writeSuper (s : State) (n : Nat) (v : Word) : Except Stop State :=
  match n, s.cid? with
  | 0x100, _ => .ok (s.writeSstatus v)
  | 0x110, some c => .ok (s.onCore c fun k => k.writeSlpart v)
  | 0x120, some c => .ok ((s.onCore c fun k => k.writePlain n v).kickInbox c)
  | 0x124, some c | 0x125, some c => .ok (((s.onCore c fun k => k.writePlain n v).respill c).takeBack c (Config.maxCoroutines + 1))
  | 0x121, some c => .ok (s.writeInboxcfg c v)
  | 0x122, some c => .ok (s.writeOvfbase c v)
  | 0x123, some c => .ok (s.writeOvfcfg c v)
  | 0x126, some c => .ok (s.dropHead c v)
  | 0x130, some c => if (s.core c).ctxBusy then .error .wait else .ok (s.writeCtxop c v)
  | n, some c =>
    if trapCsr n then .ok (s.onFocus fun h => h.writeTrapCsr n v) else .ok (s.onCore c fun k => k.writePlain n v)
  | n, none => .ok (s.onFocus fun h => h.writeTrapCsr n v)

/-- A write of a user CSR (R47, R51 to R56). -/
def State.writeUser (s : State) (n : Nat) (v : Word) : Except Stop State :=
  let c := s.hart.ctx
  match n with
  | 0x12 => s.writeVcfg v
  | 0x15 => .ok (s.setCtx { c with cbyp := v.toNat % 2 ^ 40 })
  | 0x16 => .ok (s.setCtx { c with fcsr := fcsrWrite c.fcsr v })
  | 0x17 => .ok s.writeFmask
  | 0x18 => .ok (s.setCtx { c with vstart := v.toNat % 65536 })
  | 0x19 => .ok (s.setCtx { c with lps := v &&& 0xFFFFFFFF0000003F })
  | 0x1A => .ok (s.setCtx { c with srseed := v })
  | 0x31 => .ok (s.setCtx { c with tiernote := v.getLsbD 0 })
  | _ => .ok s

/-- The write of a CSR, after its check, its strip close and its wait (R4, R5). -/
def State.csrWrite (s : State) (n : Nat) (v : Word) : Except Stop State :=
  if n < 0x100 then s.writeUser n v
  else if n < 0x200 then s.writeSuper n v
  else match s.focus with
    | .fw q => .ok (s.writeFwCsr q n v)
    | .hart _ _ => .ok s

/-! ### The instructions -/

/-- A CSR write (R51, R174): the strip of a handler is its own, and the write closes only that (log entry 6). No CSR has a poison mark, so a
poisoned source raises POISON (log entry 68). -/
def State.csrOp (s : State) (i : Instr) (a : Reg) (n : Nat) (f : Word → Word) : Host.Outcome State Fault Refusal :=
  match csrCheck s.hart.level n with
  | some t => if t.cause = .illegal then s.illegal (word ((encodeS i).getD 0)) else s.sword fun _ => .error (.trap t)
  | none => s.closing fun s => do
      let _ ← lift (s.regClean [a])
      let t ← s.csrWrite n (f (s.csrValue n))
      pure t.stepPc.retire

/-- The value of a CSR is marked poisoned: VL's or TL's (R354; log entry 68). -/
def Ctx.csrBad (c : Ctx) (n : Nat) : Bool := (n == 0x10 && c.poison.contains vlMark) || (n == 0x11 && c.poison.contains tlMark)

/-- CSRR (R174): xd := CSR. -/
def execCsrr (d : Reg) (c : BitVec 12) (s : State) : Host.Outcome State Fault Refusal :=
  let n := c.toNat
  match csrCheck s.hart.level n with
  | some t => if t.cause = .illegal then s.illegal (word ((encodeS (.csrr d c)).getD 0)) else s.sword fun _ => .error (.trap t)
  | none =>
    if s.csrWaits n then .next s
    else
      let v := s.csrValue n
      let t := match s.focus with
        | .fw q => if n = 0x200 then s.popEvent q else s
        | .hart _ _ => s
      .next (t.resultMarked d v (s.hart.ctx.csrBad n))

/-- CSRW (R174): CSR := xa. -/
def execCsrw (a : Reg) (c : BitVec 12) (s : State) : Host.Outcome State Fault Refusal :=
  let v := s.x a
  s.csrOp (.csrw a c) a c.toNat fun _ => v

/-- CSRS (R174): CSR := CSR or xa. -/
def execCsrs (a : Reg) (c : BitVec 12) (s : State) : Host.Outcome State Fault Refusal :=
  let v := s.x a
  s.csrOp (.csrs a c) a c.toNat fun w => w ||| v

/-- CSRC (R174): CSR := CSR and not xa. -/
def execCsrc (a : Reg) (c : BitVec 12) (s : State) : Host.Outcome State Fault Refusal :=
  let v := s.x a
  s.csrOp (.csrc a c) a c.toNat fun w => w &&& ~~~v

/-! ### Writes as steps of their own: the register's change, without the instruction around it -/

/-- A register change as an event: it waits, or it happens. -/
def State.change (s : State) (r : Except Stop State) : Host.Outcome State Fault Refusal :=
  match r with
  | .ok t => .next t
  | .error _ => .next s

/-- VCFG_WRITE (R47). -/
def execVcfgWrite (v : Word) (s : State) : Host.Outcome State Fault Refusal := s.change (s.writeVcfg v)

/-- FMASK_WRITE (R55). -/
def execFmaskWrite (s : State) : Host.Outcome State Fault Refusal := .next s.writeFmask

/-- SLPART_WRITE (R293). -/
def execSlpartWrite (v : Word) (s : State) : Host.Outcome State Fault Refusal := s.change (s.writeSuper 0x110 v)

/-- INBOXCFG_WRITE (R296). -/
def execInboxcfgWrite (v : Word) (s : State) : Host.Outcome State Fault Refusal := s.change (s.writeSuper 0x121 v)

/-- OVFCFG_WRITE (R296). -/
def execOvfcfgWrite (v : Word) (s : State) : Host.Outcome State Fault Refusal := s.change (s.writeSuper 0x123 v)

/-- OVFBASE_WRITE (R96). -/
def execOvfbaseWrite (v : Word) (s : State) : Host.Outcome State Fault Refusal := s.change (s.writeSuper 0x122 v)

/-- INBOXDROP_HEAD (R293). -/
def execInboxdropHead (v : Word) (s : State) : Host.Outcome State Fault Refusal := s.change (s.writeSuper 0x126 v)

/-- QBMBASE_WRITE (R309). -/
def execQbmbaseWrite (q : Nat) (v : Word) (s : State) : Host.Outcome State Fault Refusal := .next (s.writeQbmbase q v)

/-- WCTL_WRITE (R326). -/
def execWctlWrite (q : Nat) (v : Word) (s : State) : Host.Outcome State Fault Refusal := .next (s.writeWctl q v)

/-- FEVQ_READ (R326): the firmware core of a quadrant reads FEVQ into xd. -/
def execFevqRead (q : Nat) (d : Reg) (s : State) : Host.Outcome State Fault Refusal :=
  let v := s.fwCsrValue q 0x200
  .next ((s.popEvent q).onHart (.fw q) fun h => { h with ctx := (h.ctx.put d v).mark d false })

/-- FTCMP_WRITE (R326). -/
def execFtcmpWrite (q : Nat) (v : Word) (s : State) : Host.Outcome State Fault Refusal := .next (s.writeFtcmp q v)

/-- REGISTER_WRITE (R4): a write by its access codes to a register with no row of its own. -/
def execRegisterWrite (c : BitVec 12) (v : Word) (s : State) : Host.Outcome State Fault Refusal :=
  s.change (s.csrWrite c.toNat v)

end Sys2Proof.Machine
end

