-- ==== Sys2Proof/Machine/Gangs.lean ====
section
/-! DEFINITION. Messages, coroutines and the gang heap: MSEND, SPAWN, YIELD, CEXIT, GALLOC, GFREE and the gang exit
(R21, R26, R42, R260 to R263, R318). -/

namespace Sys2Proof.Machine

/-- MSEND (R260): the payload is read, and the message goes to the fabric interface behind the coroutine's own stores to that endpoint
(R114); one that the interface keeps stays ahead of it (R96). -/
def execMsend (t a : Reg) (u : BitVec 2) (y : BitVec 8) (s : State) : Host.Outcome State Fault Refusal :=
  s.checked (.msend t a u y) <| if s.isFw then s.illegal (swordBits (.msend t a u y)) else s.closing fun s => do
    let _ ← lift (s.regClean [t, a])
    let units := u.toNat + 1
    let (s, x) ← lift (s.loadNum (s.x a).toNat (64 * units - 8) 1)
    let ep := bits (s.x t).toNat 12 0
    let dcid := bits (s.x t).toNat 42 32
    s.behindStores ep fun s => s.drawn ep units fun s =>
      let (n, s) := s.nextSeq s.cid dcid
      let m : Msg := { type := y.toNat, sep := s.fabric.eid, scid := s.cid, units := units, seq := n,
                       payload := bytesOf (64 * units - 8) x }
      let kept := s.fabric.kept.any fun k => k.ep == ep && k.cid == s.cid && k.dcid == dcid
      let t : State := if kept then
          { s with fabric := { s.fabric with kept := s.fabric.kept ++
              [{ ep := ep, cid := s.cid, gid := s.own.1, coid := s.own.2, dcid := dcid, msg := m }] } }
        else s.send s.cid ep (.msg dcid m) (.msg s.cid s.own.1 s.own.2)
      .ok t.stepPc.retire

/-- The core on which SPAWN creates its coroutine (R21): the caller's, else the next of the gang in CID order with room. DESIGN CHOICE
(log entry 60): the core takes it whatever its LPART is, although R24 keeps a coroutine off a core of another LPART. -/
def State.spawnCore (s : State) (g : Gang) : Option Nat :=
  let above := g.cores.filter fun c => decide (s.cid < c)
  let below := g.cores.filter fun c => decide (c < s.cid)
  ([s.cid] ++ above ++ below).find? fun c => decide ((s.core c).coros.length < Config.maxCoroutines)

/-- The registers that SPAWN gives the new coroutine (R21): x1 to xn with their poison (R354; log entry 68), the caller's VCFG.VN,
CBYP and TIERNOTE. -/
def spawnCtx (c : Ctx) (n : Nat) (pc : Word) : Ctx :=
  { Ctx.fresh c.vn with
    pc := pc, cbyp := c.cbyp, tiernote := c.tiernote
    x := Vector.ofFn fun i : Fin 32 => if i.val ≤ n then c.get i else 0
    poison := c.poison.filter fun w => w.kind == 4 && decide (w.num ≤ n) }

/-- SPAWN (R21, R261): a release; the new coroutine takes the caller's base class. It waits while the core's context cache has no room
for a context (R29, R307). -/
def execSpawn (d a : Reg) (n : BitVec 5) (s : State) : Host.Outcome State Fault Refusal :=
  s.checked (.spawn d a n) <| s.acting (.spawn d a n) true <| s.closing fun s => do
    let _ ← lift (s.regClean [a])
    let pc := s.x a
    if pc.toNat % 4 ≠ 0 then .error (.trap { cause := .misaligned, val := pc })
    else
      s.released fun s =>
        match s.view.gang with
        | none => .error (.trap { cause := .spawnFull, val := pc })
        | some g =>
          match s.spawnCore g with
          | none => .error (.trap { cause := .spawnFull, val := pc })
          | some cid =>
            let base := match (s.core s.cid).coro g.gid s.own.2 with | some k => k.base | none => 0
            match s.create g cid base (spawnCtx s.hart.ctx n.toNat pc) none with
            | .ok t => .ok (t.result d (word (s.nextCoid g)))
            | .error t => .ok t

/-- YIELD (R26): with another coroutine ready on the hart, a full save; at supervisor level, which only ERET leaves (R291), it has no
effect. -/
def execYield (s : State) : Host.Outcome State Fault Refusal :=
  s.checked .yield <| s.acting .yield true <| s.closing fun s =>
    let other := match s.focus with
      | .hart cid h => (s.core cid).coros.any fun k => k.home == h && !k.running && k.met && !k.pre
      | .fw _ => false
    let t := s.stepPc.retire
    .ok (if other && s.canSwitch then t.saveFull .ready true else t)

/-- CEXIT (R26, R262, R318): every earlier access is performed; a JOB's image is written back; the coroutine retires, and
the last of its gang starts the gang exit. A pre-emption that CTXOP asked of it ends (R304). DESIGN CHOICE (log entry 112): at
supervisor level too; the hart is idle at user level and keeps INTRAP. -/
def execCexit (s : State) : Host.Outcome State Fault Refusal :=
  s.checked .cexit <| s.acting .cexit true <| s.closing fun s => s.released fun s =>
    let s := s.retire
    match s.focus, s.hart.occ with
    | .hart cid _, some (gid, coid) =>
      let t := ((s.jobEnd s.view.gang coid s.hart.ctx).retireCoro cid gid coid).onFocus Hart.vacate
      .ok (if s.hart.preemptReq then t.later (.preempt cid gid coid) else t)
    | _, _ => .ok s

/-! ### The gang heap (R263) -/

/-- The lowest aligned free range of `n` bytes in a heap: after the given allocations, in address order. -/
def heapFit (stop n al : Nat) : Nat → List (Nat × Nat) → Option Nat
  | from_, [] =>
    let a := (from_ + al - 1) / al * al
    if a + n ≤ stop then some a else none
  | from_, (b, k) :: r =>
    let a := (from_ + al - 1) / al * al
    if a + n ≤ b then some a else heapFit stop n al (max from_ (b + k)) r

/-- Keep a heap's allocations in address order. -/
def heapInsert (l : List (Nat × Nat)) (e : Nat × Nat) : List (Nat × Nat) :=
  l.filter (fun x => decide (x.1 < e.1)) ++ [e] ++ l.filter (fun x => decide (e.1 < x.1))

/-- GALLOC (R263): the lowest-addressed free range of the rounded size, or 0; an acquire. -/
def execGalloc (d r : Reg) (l : BitVec 5) (s : State) : Host.Outcome State Fault Refusal :=
  s.checked (.galloc d r l) <| s.acting (.galloc d r l) true <| s.closing fun s => do
    let _ ← lift (s.regClean [r])
    match s.view.gang with
    | none => .ok (s.result d 0)
    | some g =>
      let n := ((s.x r).toNat + 63) / 64 * 64
      match if n = 0 then none else heapFit (g.heapBase + g.heapSize) n (2 ^ l.toNat) g.heapBase g.heap with
      | none => .ok (s.result d 0)
      | some a => .ok ((s.onGang g.part g.gid fun k => { k with heap := heapInsert k.heap (a, n) }).result d (word a))

/-- GFREE (R263): frees a live allocation; GFREE x0 has no effect; any other address raises HEAP_FREE. A release. -/
def execGfree (a : Reg) (s : State) : Host.Outcome State Fault Refusal :=
  s.checked (.gfree a) <| s.acting (.gfree a) true <| s.closing fun s => do
    let _ ← lift (s.regClean [a])
    if a = 0 then .ok s.stepPc.retire
    else s.released fun s =>
      match s.view.gang with
      | none => .error (.trap { cause := .heapFree, val := s.x a })
      | some g =>
        if g.heap.any (·.1 == (s.x a).toNat) then
          .ok (s.onGang g.part g.gid fun k => { k with heap := k.heap.filter (·.1 != (s.x a).toNat) }).stepPc.retire
        else .error (.trap { cause := .heapFree, val := s.x a })

/-! ### The gang exit (R42) -/

/-- A copy has a destination in a gang's allocation (R42): its own scratchpad copies, and those of any partition that reach the
allocation by the remote windows of this endpoint (R82, R379). -/
def State.landsIn (s : State) (g : Gang) (c : Copy) : Bool :=
  (s.partOf c.cid == g.part && c.gid == g.gid && c.p.dk == 1)
  || (c.p.dk == 2 && c.p.ep == s.fabric.eid && ((s.boundTo s.fabric.eid (s.partOf c.cid)).map (·.1)) == some g.part
      && (List.range c.rowCount).any fun k =>
        let a := (c.row k).2.toNat
        match regionOf 0 a with
        | .remote d => g.cores.contains d && decide (a % 0x100000 < g.spad * 65536)
        | _ => false)

/-- What a gang's exit waits for: copies into its allocation, and pushes that have started, landed in part included (R42). -/
def State.exitHeld (s : State) (g : Gang) : Bool :=
  s.copies.any (s.landsIn g) || s.pushes.any fun p => p.gid == g.gid && p.part == g.part && (p.started || p.begun)

/-- The pushes of other endpoints held for a gang's GRIDKEYs are discarded (R42, R267). -/
def State.dropHeld (s : State) (g : Gang) : State :=
  { s with fabric := { s.fabric with heldPushes := s.fabric.heldPushes.map fun p =>
      if p.part == g.part && g.keys.contains p.key then { p with dropped := true } else p } }

/-- The held full/empty operations on an allocation go on once its words are full again (R42, R86). -/
def State.settleAll (s : State) : State := (s.feHeld.map (·.loc)).foldl (fun t l => t.feSettle l t.feHeld.length) s

/-- GANG_EXIT (R42, R267, R318): pushes not started are discarded; once nothing more lands, the allocations are zero-filled
and released and the exit is recorded. -/
def execGangExit (gid : Nat) (s : State) : Host.Outcome State Fault Refusal :=
  match s.gangs.find? fun g => g.gid == gid && g.ending with
  | none => .next s
  | some g =>
    let old := s
    let s := (s.dropPushes fun p => p.gid == g.gid && p.part == g.part && !p.started && !p.begun).dropHeld g
    if s.exitHeld g then .next s
    else
      let s := g.cores.foldl (fun t c => t.onCore c fun k => { k with spad := k.spad.clearBelow (g.spad * 65536) }) s
      let s := s.settleAll
      let s : State := { s with gangs := s.gangs.filter fun k => !(k.gid == g.gid && k.part == g.part),
                                grids := s.grids.filter fun k => !(k.gid == g.gid && k.part == g.part) }
      .next (old.sourced (.gangExit gid) (s.launchDone g))

end Sys2Proof.Machine
end

