-- ==== Sys2Proof/Machine/Grid.lean ====
section
/-! DEFINITION. Grids: the descriptor, the geometry of blocks, frames and regions, and the tests of step-tagged accesses
(R122 to R130, R226, R227). -/

namespace Sys2Proof.Machine

/-- Word n of a grid's descriptor (R122). -/
def Grid.w (g : Grid) (n : Nat) : Nat := (g.desc.getD n 0).toNat

/-- A packed triple's field of dimension d: bits [62:42], [41:21] or [20:0] (R122). -/
def triple (w d : Nat) : Nat := w / 2 ^ (21 * d) % 2 ^ 21

/-- The fields of the descriptor (R122). -/
def Grid.type (g : Grid) : EType := etypeOf (BitVec.ofNat 4 (bits (g.w 0) 55 52))
def Grid.ndim (g : Grid) : Nat := bits (g.w 0) 51 50
def Grid.inDevice (g : Grid) : Bool := bit (g.w 0) 49
def Grid.faultPolicy (g : Grid) : Bool := bit (g.w 0) 48
def Grid.depth (g : Grid) : Nat := bits (g.w 0) 47 46 + 1
def Grid.ext (g : Grid) (d : Nat) : Nat := triple (g.w 1) d
def Grid.bx (g : Grid) (d : Nat) : Nat := triple (g.w 2) d
def Grid.ep0 (g : Grid) : Nat := bits (g.w 3) 44 32
def Grid.bpe (g : Grid) : Nat := bits (g.w 3) 31 8
def Grid.bpc (g : Grid) : Nat := bits (g.w 3) 7 0
def Grid.br (g : Grid) (f : Nat) : Nat := g.w 4 / 2 ^ (32 + 3 * f) % 8
def Grid.hw (g : Grid) (f : Nat) : Nat := g.w 4 / 2 ^ (4 * f) % 16
def Grid.key (g : Grid) : Nat := bits (g.w 5) 63 32
def Grid.step0 (g : Grid) : Nat := bits (g.w 5) 31 0
def Grid.base (g : Grid) : Nat := g.w 6
def Grid.sync (g : Grid) : Nat := g.w 7
def Grid.const (g : Grid) (f : Nat) : Nat := g.w (8 + f)
def Grid.parent (g : Grid) : Nat := bits (g.w 14) 63 48
def Grid.ratio (g : Grid) : Nat := 2 ^ bits (g.w 14) 47 46
def Grid.origin (g : Grid) (d : Nat) : Nat := triple (g.w 15) d

/-- Bytes of an element. -/
def Grid.esize (g : Grid) : Nat := etypeBits g.type / 8

/-- Blocks along a dimension, and in all (R124). -/
def Grid.nb (g : Grid) (d : Nat) : Nat := g.ext d / max 1 (g.bx d)
def Grid.total (g : Grid) : Nat := g.nb 0 * g.nb 1 * g.nb 2

/-- Padded extent of a frame, its bytes and a block's bytes (R124). -/
def Grid.px (g : Grid) (d : Nat) : Nat := g.bx d + g.hw (2 * d) + g.hw (2 * d + 1)
def Grid.fb (g : Grid) : Nat := (g.px 0 * g.px 1 * g.px 2 * g.esize + 63) / 64 * 64
def Grid.bb (g : Grid) : Nat := g.depth * g.fb

/-- Blocks of an endpoint, numbered 0 up (R124). -/
def Grid.localCount (g : Grid) (ep : Nat) : Nat :=
  if ep < g.ep0 then 0 else min g.bpe (g.total - (ep - g.ep0) * g.bpe)

/-- The global number of an endpoint's local block (R124). -/
def Grid.globalOf (g : Grid) (ep j : Nat) : Nat := (ep - g.ep0) * g.bpe + j

/-- The endpoint and the local index of a global block (R124). -/
def Grid.epOf (g : Grid) (b : Nat) : Nat := g.ep0 + b / max 1 g.bpe
def Grid.localOf (g : Grid) (b : Nat) : Nat := b % max 1 g.bpe

/-- Block coordinate d of a global block (R124). -/
def Grid.coord (g : Grid) (b d : Nat) : Nat :=
  match d with
  | 0 => b % max 1 (g.nb 0)
  | 1 => b / max 1 (g.nb 0) % max 1 (g.nb 1)
  | _ => b / max 1 (g.nb 0 * g.nb 1)

/-- The block at three coordinates. -/
def Grid.blockAt (g : Grid) (c0 c1 c2 : Nat) : Nat := (c2 * g.nb 1 + c1) * g.nb 0 + c0

/-- The storage of block j: its first address (R124). -/
def Grid.blockBase (g : Grid) (j : Nat) : Nat :=
  if g.inDevice then g.base + j * g.bb else g.base + j % max 1 g.bpc * g.bb

/-- The byte offset of block-local coordinates in a frame (R124). -/
def Grid.offsetOf (g : Grid) (x0 x1 x2 : Int) : Nat :=
  ((((x2 + g.hw 4) * g.px 1 + (x1 + g.hw 2)) * g.px 0 + (x0 + g.hw 0)) * g.esize).toNat

/-- Block-local coordinate d of the element at an offset of a frame; none for the frame's padding. -/
def Grid.coordsOf (g : Grid) (off : Nat) : Option (Int × Int × Int) :=
  let e := off / max 1 g.esize
  let x0 := e % max 1 (g.px 0)
  let x1 := e / max 1 (g.px 0) % max 1 (g.px 1)
  let x2 := e / max 1 (g.px 0 * g.px 1)
  if x2 < g.px 2 then some ((x0 : Int) - g.hw 0, (x1 : Int) - g.hw 2, (x2 : Int) - g.hw 4) else none

/-- The digit of a region in one dimension: 0 below, 1 inside, 2 above (R125). -/
def regionDigit (x : Int) (bx : Nat) : Nat := if x < 0 then 0 else if x < bx then 1 else 2

/-- A region's number from its three digits; 13 is the interior (R125). -/
def regionNo (a b c : Nat) : Nat := a + 3 * b + 9 * c
def interior : Nat := 13

/-- Digit d of a region. -/
def regionDim (r d : Nat) : Nat := r / 3 ^ d % 3

/-- The region of an element (R125). -/
def Grid.regionAt (g : Grid) (x : Int × Int × Int) : Nat :=
  regionNo (regionDigit x.1 (g.bx 0)) (regionDigit x.2.1 (g.bx 1)) (regionDigit x.2.2 (g.bx 2))

/-- Elements of a region along a dimension. -/
def Grid.regionExt (g : Grid) (r d : Nat) : Nat :=
  match regionDim r d with
  | 0 => g.hw (2 * d)
  | 1 => g.bx d
  | _ => g.hw (2 * d + 1)

/-- The regions of a grid that hold an element, the interior apart (R125). -/
def Grid.regions (g : Grid) : List Nat :=
  (List.range 27).filter fun r => r != interior && (List.range 3).all fun d => g.regionExt r d != 0

/-- The faces a region of a block lies beyond, at the domain's edge (R126). -/
def Grid.outFaces (g : Grid) (b r : Nat) : List Nat :=
  (List.range 3).filterMap fun d =>
    match regionDim r d with
    | 0 => if g.coord b d = 0 then some (2 * d) else none
    | 2 => if g.coord b d + 1 = g.nb d then some (2 * d + 1) else none
    | _ => none

/-- A region whose rule is OPEN (R126, R227). -/
def Grid.isOpen (g : Grid) (b r : Nat) : Bool := (g.outFaces b r).any fun f => g.br f == 4

/-- A declared block. -/
def Grid.block (g : Grid) (j : Nat) : Option GBlock := g.blocks.find? (·.j == j)

/-- The tag of a region in a frame (R127). -/
def GBlock.tag (b : GBlock) (frame r : Nat) : Option Nat := (b.tags.find? fun t => t.1 == frame && t.2.1 == r).map (·.2.2)

/-- A grid of a gang by its handle. -/
def State.gridOf (s : State) (part gid handle : Nat) : Option Grid :=
  s.grids.find? fun g => g.part == part && g.gid == gid && g.handle == handle

/-- Replace a grid. -/
def State.setGrid (s : State) (g : Grid) : State :=
  { s with grids := s.grids.map fun k => if k.part == g.part && k.gid == g.gid && k.handle == g.handle then g else k }

/-- Change a block of a grid. -/
def Grid.onBlock (g : Grid) (j : Nat) (f : GBlock → GBlock) : Grid :=
  { g with blocks := g.blocks.map fun b => if b.j == j then f b else b }

/-- The block of a grid whose storage holds an address as a core of the gang sees it: its local index, and the offset from
the block's first byte (R226). -/
def Grid.blockOf (g : Grid) (gang : Gang) (cid ep va : Nat) : Option (Nat × Nat) :=
  let n := g.localCount ep
  let bb := max 1 g.bb
  if g.inDevice then
    if va < g.base ∨ (va - g.base) / bb ≥ n then none else some ((va - g.base) / bb, (va - g.base) % bb)
  else
    let at_ := match regionOf gang.cores.length va with
      | .self => some (gang.cores.findIdx (· == cid), va % 0x100000)
      | .gang k => some (k, va % 0x100000)
      | _ => none
    match at_ with
    | none => none
    | some (k, off) =>
      let b0 := g.base % 0x100000
      if off < b0 ∨ (off - b0) / bb ≥ g.bpc ∨ k * g.bpc + (off - b0) / bb ≥ n then none
      else some (k * g.bpc + (off - b0) / bb, (off - b0) % bb)

/-- What a step-tagged access finds at an element. -/
inductive Tagged where
  | plain
  | window
  | current
  | stale (j : Nat)
  deriving DecidableEq, Repr

/-- The test of a VLDG element tagged s (R129). -/
def Grid.loadTest (g : Grid) (gang : Gang) (cid ep va st : Nat) : Tagged :=
  match g.blockOf gang cid ep va with
  | none => .plain
  | some (j, off) =>
    match g.coordsOf (off % max 1 g.fb), g.block j with
    | some x, some b =>
      let r := g.regionAt x
      let frame := off / max 1 g.fb
      if r = interior then .plain
      else
        match b.pub with
        | none => .window
        | some p =>
          if st < p ∨ st > p + g.depth - 1 ∨ frame ≠ st % g.depth then .window
          else if b.tag frame r = some st then .current
          else .stale j
    | _, _ => .plain

/-- The test of a VSTG element tagged s (R227): true when it may be stored. An element in the rounding tail of a block's frame lies in the
block's storage and in no region. -/
def Grid.storeTest (g : Grid) (gang : Gang) (cid ep va st : Nat) : Bool :=
  match g.blockOf gang cid ep va with
  | none => true
  | some (j, off) =>
    match g.coordsOf (off % max 1 g.fb), g.block j with
    | some x, some b =>
      let r := g.regionAt x
      (match b.pub with
        | none => st == g.step0
        | some p => decide (p + 1 ≤ st ∧ st ≤ p + g.depth))
      && off / max 1 g.fb == st % g.depth && (r == interior || g.isOpen (g.globalOf ep j) r)
    | _, _ => false

/-- The token of a block's ghost word (`publish` false) or publish word for a step (R128). -/
def Grid.wordToken (g : Grid) (ep j : Nat) (publish : Bool) (st : Nat) : Word :=
  tokenOf ep ((g.sync + 32 * j + (if publish then 16 else 0)) / 16) ((st + 2 ^ 32 - g.step0) % 65536)

/-- The trap value of a tag (R297). -/
def tagValue (handle st : Nat) : Word := word (handle % 65536 * 2 ^ 32 + st % 2 ^ 32)

end Sys2Proof.Machine
end

