-- ==== Sys2Proof/Machine/Halo.lean ====
section
/-! DEFINITION. Grids at run time: GDECL, GSTEP, GWAIT, GDROP, ghost values, and the landing of halo pushes
(R122 to R132, R265 to R267). -/

namespace Sys2Proof.Machine

/-! ### Ghost values (R126, R132) -/

/-- Global coordinates of an element. -/
abbrev Coords := List Int

/-- Coordinate d. -/
def at_ (p : Coords) (d : Nat) : Int := p.getD d 0

/-- The faces a global coordinate lies beyond (R126). -/
def Grid.beyond (g : Grid) (p : Coords) : List Nat :=
  (List.range 3).filterMap fun d =>
    if at_ p d < 0 then some (2 * d) else if at_ p d ≥ g.ext d then some (2 * d + 1) else none

/-- A rule among the faces a coordinate lies beyond. -/
def Grid.anyRule (g : Grid) (p : Coords) (rule : Nat) : Bool := (g.beyond p).any fun f => g.br f == rule

/-- A coordinate wrapped or reflected by the rule of the face it lies beyond (R126). -/
def Grid.mapDim (g : Grid) (p : Coords) (d : Nat) : Int :=
  let x := at_ p d
  let f := if x < 0 then 2 * d else 2 * d + 1
  if 0 ≤ x ∧ x < g.ext d then x
  else match g.br f with
    | 0 => x % max 1 (g.ext d : Int)
    | 1 => if x < 0 then -1 - x else 2 * (g.ext d : Int) - 1 - x
    | _ => x

/-- A coordinate moved to the nearest element of the domain. -/
def Grid.clampDim (g : Grid) (p : Coords) (d : Nat) : Int := max 0 (min (at_ p d) ((g.ext d : Int) - 1))

/-- The block that owns a global coordinate of the domain (R124). -/
def Grid.ownerOf (g : Grid) (p : Coords) : Nat :=
  let c := fun d => (at_ p d).toNat / max 1 (g.bx d)
  g.blockAt (c 0) (c 1) (c 2)

/-- The parent of a patch among the grids of its gang (R131). -/
def Grid.parentIn (g : Grid) (gs : List Grid) : Option Grid := gs.find? fun k => k.handle == g.parent

/-- A patch coordinate as a coordinate of the parent (R132). -/
def Grid.inject (g : Grid) (p : Coords) : Coords :=
  (List.range 3).map fun d => if d < g.ndim then (g.origin d : Int) + at_ p d / (g.ratio : Int) else at_ p d

/-- The grid key and the block that supply an element (R126, R127): constant and open elements are a region's own.
DESIGN CHOICE (log entry 103): the source of a patch element whose parent coordinate lies outside the parent's domain under CONSTANT or OPEN
is the parent block that owns the nearest element of the domain. -/
def Grid.home (gs : List Grid) : Nat → Grid → Coords → Option Nat → Nat × Nat
  | 0, g, p, _ => (g.key, g.ownerOf p)
  | n + 1, g, p, own =>
    let clamped := g.ownerOf ((List.range 3).map (g.clampDim p))
    if (g.beyond p).isEmpty then (g.key, g.ownerOf p)
    else if g.anyRule p 4 ∨ g.anyRule p 2 then (g.key, own.getD clamped)
    else if g.anyRule p 5 then
      match g.parentIn gs with
      | some q => Grid.home gs n q (g.inject p) none
      | none => (g.key, own.getD clamped)
    else
      let m := (List.range 3).map (g.mapDim p)
      (g.key, g.ownerOf ((List.range 3).map (g.clampDim m)))

/-- The places of an element of a local block in a frame (R124): a scratchpad of the gang, or device memory under UROOT. -/
def State.frameSpot (s : State) (g : Grid) (k : Gang) (j frame off n : Nat) (write : Bool) : Except Trap Spot :=
  let a := g.blockBase j + frame * g.fb + off
  if g.inDevice then s.pagedSpot (s.rootsOf g.part).1 true write a n
  else
    match k.cores[j / max 1 g.bpc]? with
    | some c => .ok { locs := (Loc.spad c (a % 0x100000)).run n, lines := [], tiers := [] }
    | none => .error { cause := .addrHole, val := word a }

/-- The interior element at a coordinate of the domain, of step t, with its poison. -/
def State.interiorAt (s : State) (g : Grid) (k : Gang) (t : Nat) (p : Coords) : Except Trap (Nat × Bool) := do
  let b := g.ownerOf p
  let x := fun d => at_ p d - (g.coord b d * g.bx d : Nat)
  let q ← s.frameSpot g k (g.localOf b) (t % g.depth) (g.offsetOf (x 0) (x 1) (x 2)) g.esize false
  let q ← q.noTier (g.blockBase (g.localOf b))
  pure (s.numAt q.locs, q.locs.any s.poisonAt)

/-- RoundToFormat((m + 2) * a - (m + 1) * b, TYPE, RNE); an integer type wraps (R126). -/
def extrapolate (t : EType) (m a b : Nat) : Nat :=
  let w := etypeBits t
  if classI t then patternOf w ((m + 2 : Int) * signedOf w a - (m + 1) * signedOf w b)
  else
    let v : FpEnv := { rm := 0, daz := false, ftz := false, rnd := 0 }
    match fprod (.fin false (m + 2) 0) (fdecode t a), fprod (.fin true (m + 1) 0) (fdecode t b) with
    | some x, some y => (fadd t v x y).1
    | _, _ => canonNan t

/-- Lin of R126, over the dimensions still to be treated. -/
def Grid.lin (g : Grid) (read : Coords → Except Trap (Nat × Bool)) : List Nat → Coords → Except Trap (Nat × Bool)
  | [], p => read p
  | d :: ds, p =>
    let x := at_ p d
    let e : Int := (g.ext d : Int) - 1
    if 0 ≤ x ∧ x ≤ e then g.lin read ds p
    else do
      let m := if x < 0 then (-1 - x).toNat else (x - e - 1).toNat
      let a ← g.lin read ds (listPut p d (if x < 0 then 0 else e))
      let b ← g.lin read ds (listPut p d (if x < 0 then 1 else e - 1))
      pure (extrapolate g.type m a.1 b.1, a.2 || b.2)

/-- The value of a ghost element of step t (R126): none where nothing is written. DESIGN CHOICE (log entry 70): the bits of CONST above
the element, which R122 gives as zero and R123 does not check, are ignored. -/
def State.ghostValue (s : State) (gs : List Grid) (k : Gang) (t : Nat) :
    Nat → Grid → Coords → Except Trap (Option (Nat × Bool))
  | 0, _, _ => .ok none
  | n + 1, g, p =>
    if (g.beyond p).isEmpty then do pure (some (← s.interiorAt g k t p))
    else if g.anyRule p 4 then .ok none
    else if g.anyRule p 2 then
      .ok (((g.beyond p).find? fun f => g.br f == 2).map fun f => (g.const f % 256 ^ g.esize, false))
    else if g.anyRule p 5 then
      match g.parentIn gs with
      | some q => s.ghostValue gs k t n q (g.inject p)
      | none => .ok none
    else do pure (some (← g.lin (s.interiorAt g k t) (List.range g.ndim) ((List.range 3).map (g.mapDim p))))

/-! ### Sources and destinations (R127) -/

/-- Block-local coordinates of a region along a dimension (R125). -/
def Grid.regionRange (g : Grid) (r d : Nat) : List Int :=
  match regionDim r d with
  | 0 => (List.range (g.hw (2 * d))).map fun (i : Nat) => (i : Int) - g.hw (2 * d)
  | 1 => (List.range (g.bx d)).map fun (i : Nat) => (i : Int)
  | _ => (List.range (g.hw (2 * d + 1))).map fun (i : Nat) => (i : Int) + g.bx d

/-- The elements of a region, as block-local coordinates. -/
def Grid.regionElems (g : Grid) (r : Nat) : List Coords :=
  (g.regionRange r 2).flatMap fun z => (g.regionRange r 1).flatMap fun y => (g.regionRange r 0).map fun x => [x, y, z]

/-- Block-local coordinates as global ones. -/
def Grid.globalAt (g : Grid) (b : Nat) (x : Coords) : Coords :=
  (List.range 3).map fun d => (g.coord b d * g.bx d : Nat) + at_ x d

/-- Levels of patches a coordinate may pass through. -/
def patchLevels : Nat := 256

/-- The sources of a region of a block (R127, R132). -/
def Grid.sources (g : Grid) (gs : List Grid) (b r : Nat) : List (Nat × Nat) :=
  ((g.regionElems r).map fun x => Grid.home gs patchLevels g (g.globalAt b x) (some b)).dedup

/-- The grids of the gang that declared a grid. -/
def State.gangGrids (s : State) (g : Grid) : List Grid := s.grids.filter fun k => k.part == g.part && k.gid == g.gid

/-- The regions sourced by a block: the destination grid, its block, the region and the number of the source among the
region's sources (R127). -/
def State.fed (s : State) (g : Grid) (b : Nat) : List (Grid × Nat × Nat × Nat) :=
  let gs := s.gangGrids g
  gs.flatMap fun d => (List.range d.total).flatMap fun blk => d.regions.filterMap fun r =>
    let src := d.sources gs blk r
    if src.contains (g.key, b) then some (d, blk, r, src.findIdx (· == (g.key, b))) else none

/-- The destination blocks of a block other than itself. -/
def State.fedBlocks (s : State) (g : Grid) (b : Nat) : List (Grid × Nat) :=
  (((s.fed g b).map fun e => (e.1, e.2.1)).filter fun e => !(e.1.key == g.key && e.2 == b)).dedup

/-! ### Tags and the ghost-complete step (R127, R128) -/

/-- A region of a block has reached the tag of a step. -/
def GBlock.reached (b : GBlock) (depth st r : Nat) : Bool :=
  match b.tag (st % depth) r with
  | some t => decide (st ≤ t)
  | none => false

/-- The ghost-complete step moves on while every region has reached it; with no region it is the published step (R128). -/
def Grid.completeFrom (g : Grid) (b : GBlock) : Nat → Nat → Nat
  | 0, c => c
  | n + 1, c =>
    if g.regions.isEmpty then (match b.pub with | some p => p + 1 - g.step0 | none => c)
    else if g.regions.all (b.reached g.depth (g.step0 + c)) then g.completeFrom b n (c + 1) else c

/-- A block's ghost or publish word is brought to a generation (R128): what a program did to the word does not matter. `who` is the
core that published, or the endpoint of one elsewhere. -/
def State.advanceWord (s : State) (g : Grid) (j : Nat) (publish : Bool) (gen : Nat) (who : Contributor) : State :=
  let tok := tokenOf s.fabric.eid ((g.sync + 32 * j + (if publish then 16 else 0)) / 16) 0
  s.offer { tok := tok, n := 0, who := who, root := (s.rootsOf g.part).1, user := true, xfer := 0, gen := some gen,
            reported := none }

/-- The ghost-complete step of a block is brought up to date, and its ghost word with it. -/
def State.advanceGhost (s : State) (g : Grid) (j : Nat) (who : Contributor) : State :=
  match g.block j with
  | none => s
  | some b =>
    let c := g.completeFrom b (g.depth + 4) b.complete
    let s := s.setGrid (g.onBlock j fun k => { k with complete := c })
    if c = b.complete then s else s.advanceWord g j false c who

/-- One part of a region of a step has landed: with its last part the region's tag is the step (R127, R132). -/
def State.partLanded (s : State) (g : Grid) (j region st piece : Nat) (who : Contributor) : State :=
  match g.block j with
  | none => s
  | some b =>
    let parts := (b.parts.filter (· != (region, st, piece))) ++ [(region, st, piece)]
    let need := (g.sources (s.gangGrids g) (g.globalOf s.fabric.eid j) region).length
    let have_ := (parts.filter fun p => p.1 == region && p.2.1 == st).length
    let f := st % g.depth
    let b' : GBlock := if have_ < need then { b with parts := parts }
      else { b with parts := parts.filter fun p => !(p.1 == region && p.2.1 == st)
                    tags := b.tags.filter (fun t => !(t.1 == f && t.2.1 == region)) ++ [(f, region, st)] }
    let g := g.onBlock j fun _ => b'
    (s.setGrid g).advanceGhost g j who

/-- The elements of a push are stored in a destination frame of this endpoint (R127, R233, R360). -/
def State.storeEls (s : State) (g : Grid) (k : Gang) (j frame : Nat) (els : List (Nat × List Byte × Bool)) :
    Except Stop State := do
  let ws ← lift (els.mapM fun e => do
    let q ← s.frameSpot g k j frame e.1 e.2.1.length true
    let q ← q.noTier (g.blockBase j)
    pure (q.locs.zip e.2.1, e.2.2))
  let t ← s.perform (ws.flatMap (·.1))
  pure ((ws.filter (·.2)).foldl (fun t w => ((w.1.map fun x => x.1.word).dedup).foldl (fun t l => t.putPoison l true) t) t)

/-! ### The landing of pushes -/

/-- The gang of a grid. -/
def State.gangOfGrid (s : State) (g : Grid) : Option Gang := s.gangs.find? fun k => k.gid == g.gid && k.part == g.part

/-- The destination address of an element of a push, from the descriptor all endpoints share (R124). -/
def Grid.pushAddr (g : Grid) (blk st off : Nat) : Nat := g.blockBase (g.localOf blk) + st % g.depth * g.fb + off

/-- The number of elements of the next packet of a push to another endpoint (R375): at most 256 bytes, in one 256-byte
block of the destination. -/
def Grid.packet (g : Grid) (p : Push) : Nat :=
  match p.els with
  | [] => 0
  | e :: _ =>
    let blk := fun x : Nat × List Byte × Bool => g.pushAddr p.blk p.step x.1 / 256
    (p.els.takeWhile fun x => blk x == blk e && g.pushAddr p.blk p.step x.1 / 256 == (g.pushAddr p.blk p.step x.1 + g.esize - 1) / 256).length
      |> max 1 |> min (256 / max 1 g.esize)

/-- A push is on its way to another endpoint. -/
def State.pushSent (s : State) (p : Push) : Bool :=
  s.fabric.sent.any fun r => match r.cont with
    | .push i _ => p.id == i
    | _ => false

/-- Remove a push that has landed (R42). -/
def State.dropPush (s : State) (p : Push) : State :=
  { s with pushes := s.pushes.filter (·.id != p.id) }

/-- Replace a push. -/
def State.setPush (s : State) (p : Push) : State :=
  { s with pushes := s.pushes.map fun q => if q.id == p.id then p else q }

/-- What a push came to at its turn. -/
inductive Landed where
  | done (s : State)
  | held (s : State)
  | busy

/-- One push moves: its elements land here, or its next packet leaves for another endpoint (R127, R337, R375). One that has not started
when its gang's last coroutine retires does not start (R42). -/
def State.movePush (s : State) (p : Push) : Landed :=
  match s.grids.find? fun g => g.part == p.part && g.gid == p.gid && g.key == p.key with
  | none => .held s
  | some g =>
    if !p.started && !p.begun && s.gangs.any fun k => k.gid == p.gid && k.part == p.part && k.ending then .held s
    else if p.ep ≠ s.fabric.eid then
      if s.pushSent p ∨ p.held ≠ .no then .held s
      else
        let n := g.packet p
        let els := p.els.take n
        let u := unitsOf (els.map (·.2.1.length)).sum
        match s.draw (.push p.id) p.ep u with
        | none => .held ((s.setPush { p with held := .units p.ep u }).queueFor (.push p.id) p.ep u)
        | some t =>
          let last := n ≥ p.els.length
          .done ((t.setPush { p with started := true }).send p.cid p.ep
            (.push p.sn p.key p.blk p.region (2 * p.piece + flag (!last)) p.step els) (.push p.id n))
    else
      match s.gangOfGrid g with
      | none => .held s
      | some k =>
        match s.storeEls g k (g.localOf p.blk) (p.step % g.depth) p.els with
        | .ok t =>
          match t.grids.find? fun g => g.part == p.part && g.gid == p.gid && g.key == p.key with
          | some g => .done ((t.dropPush p).partLanded g (g.localOf p.blk) p.region p.step p.piece (.core p.cid))
          | none => .done (t.dropPush p)
        | .error .wait => .busy
        | .error (.trap t) =>
          let s' := s.setPush { p with held := .walk t }
          .held (if p.held = .walk t then s else s'.postAsync p.cid t)

/-- The first of some pushes that moves; held ones are passed over. DESIGN CHOICE (log entry 94): also those of an earlier step to the same
region of another endpoint, since the spec orders no two pushes. -/
def State.firstPush (s : State) : List Push → State × Bool × Bool
  | [] => (s, false, false)
  | p :: ps =>
    match s.movePush p with
    | .done t => (t, true, false)
    | .held t => t.firstPush ps
    | .busy => let r := s.firstPush ps; (r.1, r.2.1, true)

/-- SKINK_WRITE_LAND (R127): the first push from the n-th on that can move lands or leaves. -/
def execSkinkWriteLand (n : Nat) (s : State) : Host.Outcome State Fault Refusal :=
  let r := s.firstPush (s.pushes.drop n)
  if r.2.1 then
    let t := r.1
    let ends := (t.gangs.filter (·.ending)).foldl (fun t g => t.later (.gangExit g.gid)) t
    .next (if t.pushes.isEmpty then ends else ends.later (.skinkWriteLand 0))
  else if r.2.2 then .next (r.1.retry (.skinkWriteLand 0))
  else .next r.1

/-! ### Declaration (R122, R123, R132, R265) -/

/-- The descriptor's own fields are legal (R123). DESIGN CHOICE (log entry 70): a halo width above 8 and an extent of 0, which R122's
ranges exclude and R123 does not list, raise GRID_DESC too. -/
def Grid.fieldsOk (g : Grid) : Bool :=
  let dims := List.range 3
  bits (g.w 0) 63 56 == 1 && etypeBits g.type ≥ 8 && g.ndim != 0 && bits (g.w 0) 45 0 == 0
  && !bit (g.w 1) 63 && !bit (g.w 2) 63 && bits (g.w 3) 63 45 == 0 && bits (g.w 4) 63 50 == 0 && bits (g.w 4) 31 24 == 0
  && bits (g.w 14) 45 0 == 0 && !bit (g.w 15) 63
  && dims.all (fun d =>
      let lo := 2 * d
      let hi := 2 * d + 1
      if d ≥ g.ndim then
        g.ext d == 1 && g.bx d == 1 && g.hw lo == 0 && g.hw hi == 0 && g.br lo == 0 && g.br hi == 0
      else
        g.bx d != 0 && g.ext d != 0 && g.ext d % g.bx d == 0 && g.hw lo ≤ g.bx d && g.hw hi ≤ g.bx d
        && (g.bx d ≥ 2 || (g.br lo != 3 && g.br hi != 3)))
  && (List.range 6).all (fun f => g.br f ≤ 5 && g.hw f ≤ 8)
  && g.bpc != 0 && g.bpe != 0 && (g.parent != 0xFFFF || (List.range 6).all fun f => g.br f != 5)

/-- The number of endpoints that hold blocks of a grid, from EP0 up (R124). -/
def Grid.epCount (g : Grid) : Nat := (g.total + g.bpe - 1) / max 1 g.bpe

/-- The patch's own fields agree with its parent's (R132). -/
def Grid.patchOk (g p : Grid) : Bool :=
  p.ndim == g.ndim && p.type == g.type && p.ep0 == g.ep0 && p.epCount == g.epCount && g.ratio ≥ 2
  && (List.range g.ndim).all (fun d =>
      g.br (2 * d) == 5 && g.br (2 * d + 1) == 5 && g.ext d % g.ratio == 0
      && decide (g.origin d + g.ext d / g.ratio ≤ p.ext d))

/-- The parent blocks that a patch draws on (R132). -/
def Grid.parentBlocks (g p : Grid) (gs : List Grid) : List Nat :=
  ((List.range g.total).flatMap fun b => g.regions.flatMap fun r =>
    ((g.sources gs b r).filter (·.1 == p.key)).map (·.2)).dedup

/-- A parent block of this endpoint that a patch draws on has published a step at or past the patch's STEP0 (R132). -/
def Grid.patchLate (g p : Grid) (gs : List Grid) (ep : Nat) : Bool :=
  (g.parentBlocks p gs).any fun q => p.epOf q == ep && (match (p.block (p.localOf q)).bind (·.pub) with
      | some st => decide (g.step0 ≤ st)
      | none => false)

/-- Tokens on the publish words of the parent blocks of other endpoints that a patch draws on (R128, R132). -/
def Grid.parentTokens (g p : Grid) (gs : List Grid) (ep : Nat) : List Word :=
  ((g.parentBlocks p gs).filter fun q => p.epOf q != ep).map fun q => p.wordToken (p.epOf q) (p.localOf q) true g.step0

/-- A range of addresses is mapped in device memory (R123). DESIGN CHOICE (log entry 93): with user and write permission on each page, which the
GSTEPs and pushes of the grid need. -/
def State.mappedDevice (s : State) (root a n : Nat) : Bool :=
  a + n ≤ 2 ^ 56 && (List.range ((a + n + 0xFFFF) / 0x10000 - a / 0x10000)).all fun i =>
    match s.leafFor root true true (max a ((a / 0x10000 + i) * 0x10000)) with
    | .ok l => !bit l.pte 62
    | .error _ => false

/-- The blocks of this endpoint fit the gang and their storage (R123). -/
def State.gridFits (s : State) (g : Grid) (k : Gang) : Bool :=
  let n := g.localCount s.fabric.eid
  decide ((n + g.bpc - 1) / max 1 g.bpc ≤ k.cores.length)
  && (if g.inDevice then s.mappedDevice (s.rootsOf g.part).1 g.base (n * g.bb)
      else regionOf 0 g.base == .self && decide (g.base % 0x100000 + min g.bpc n * g.bb ≤ k.spad * 65536))

/-- The two sync words of a local block become SINIT's words with GEN 0 and TARGET 0 (R128). -/
def State.initWords (s : State) (g : Grid) : Nat → Except Stop State
  | 0 => .ok s
  | n + 1 => do
    let s ← s.initWords g n
    let one := fun (s : State) (a : Nat) => do
      let q ← lift (s.locate s.view a 16 16 true)
      let q ← lift (q.noTier a)
      let t ← s.perform (q.locs.zip (bytesOf 8 (2 ^ 63) ++ bytesOf 8 0))
      pure (match q.locs with | l :: _ => t.wake l | [] => t)
    let s ← one s (g.sync + 32 * n)
    one s (g.sync + 32 * n + 16)

/-- The answer of another endpoint to the i-th read of a publish word: whether its block has published a patch's STEP0, the step of `tok`,
by the test of tokens (R89, R128, R132); where that STEP0 lies before the parent's, any published step is late. The word shows its step
modulo 2^16 (log entry 71). -/
def State.remoteLate (s : State) (before : Bool) (tok : Word) (i : Nat) : Option Bool :=
  (s.fabric.awaits.find? fun r => r.1 == s.focus && r.2.1 == i).map fun r =>
    r.2.2.1 && (if before then r.2.2.2 != 0 else signalledBy r.2.2.2 tok)

/-- The declaration of a checked grid (R265): its handle, its blocks and their words. -/
def State.declare (s : State) (d : Reg) (g : Grid) (h : Nat) : Except Stop State := do
  let n := g.localCount s.fabric.eid
  let s ← s.initWords g n
  let blk := fun j => ({ j := j, pub := none, unread := false, complete := 0, tags := [], parts := [], reported := none, stepper := none } : GBlock)
  let s : State := { s with grids := s.grids ++ [{ g with handle := h, blocks := (List.range n).map blk }] }
  let s := s.onGang g.part g.gid fun k => { k with keys := if k.keys.contains g.key then k.keys else k.keys ++ [g.key] }
  pure ((s.result d (word h)).later (.skinkWriteLand 0))

/-- GDECL (R265). A patch whose parent has blocks at other endpoints first reads their publish words (R132; log entry 71). DESIGN
CHOICE (log entry 70): a SYNC that is not 32-byte aligned raises MISALIGNED, and words past the limit of sync words ADDR_HOLE. -/
def execGdecl (d a : Reg) (s : State) : Host.Outcome State Fault Refusal :=
  s.checked (.gdecl d a) <| s.acting (.gdecl d a) true <| s.closing fun s => do
    let _ ← lift (s.regClean [a])
    let va := s.x a
    let (s, x) ← lift (s.loadNum va.toNat 128 64)
    let bad : Stop := .trap { cause := .gridDesc, val := va }
    match s.view.gang with
    | none => .error bad
    | some k =>
      let mine := s.grids.filter fun g => g.part == k.part && g.gid == k.gid
      let g : Grid := { gid := k.gid, part := k.part, handle := 65536, blocks := []
                        desc := (List.range 16).map fun i => word (x / 2 ^ (64 * i)) }
      let parent := if g.parent = 0xFFFF then none else g.parentIn mine
      let patchBad := g.parent != 0xFFFF && (match parent with
        | none => true
        | some p => !g.patchOk p || g.patchLate p (g :: mine) s.fabric.eid)
      if !g.fieldsOk ∨ patchBad ∨ !s.gridFits g k ∨ mine.any (·.key == g.key) then .error bad
      else if g.sync % 32 ≠ 0 then .error (.trap { cause := .misaligned, val := word g.sync })
      else if g.sync + 32 * g.localCount s.fabric.eid > Config.syncEnd then .error (.trap { cause := .addrHole, val := word g.sync })
      else
        let toks := match parent with
          | some p => g.parentTokens p (g :: mine) s.fabric.eid
          | none => []
        let before := match parent with | some p => decide (g.step0 < p.step0) | none => false
        let answers := toks.zipIdx.map fun t => s.remoteLate before t.1 t.2
        match (List.range toks.length).find? fun i => (answers.getD i none).isNone with
        | some i => .ok (s.ask (tokenEp (toks.getD i 0)) (.syncRead (toks.getD i 0)) (.await s.focus i))
        | none =>
          let s := if toks.isEmpty then s else s.forget
          if answers.any (· == some true) then .error bad
          else
            match (List.range Config.maxGrids).find? fun h => mine.all (·.handle != h) with
            | none => .error (.trap { cause := .gridFull })
            | some h => s.declare d g h

/-! ### GSTEP, GWAIT and GDROP -/

/-- The grid, its gang and the step of a tag; an undeclared handle raises GRID_HANDLE (R266, R267). -/
def State.taggedGrid (s : State) (tag : Word) : Except Stop (Grid × Gang × Nat) :=
  let h := bits tag.toNat 47 32
  let st := bits tag.toNat 31 0
  let bad : Stop := .trap { cause := .gridHandle, val := tagValue h st }
  match s.view.gang with
  | none => .error bad
  | some k =>
    match s.gridOf k.part k.gid h with
    | some g => .ok (g, k, st)
    | none => .error bad

/-- Await a token in a grid instruction that runs again when it is signalled, or stay at the instruction at another level
(R127, R266). DESIGN CHOICE (log entry 104): a word with V = 0, that of an endpoint that has not declared GRIDKEY among them, gives
SYNC_UNINIT (R91). -/
def State.awaitGrid (s : State) (tok : Word) : State :=
  if s.canSwitch then
    (s.register s.cid s.view.root s.view.user tok).saveFull (.token [tok] false 0 none [] 0 true) false
  else s

/-- The test of a destination block's published step (R127 step 3): none while the answer of its endpoint is missing. -/
def State.stepReached (s : State) (d : Grid) (b q i : Nat) : Option Bool :=
  if q < d.step0 then some true
  else if d.epOf b = s.fabric.eid then
    match (s.grids.find? fun g => g.part == d.part && g.gid == d.gid && g.key == d.key).bind fun g => g.block (g.localOf b) with
    | some k => some (match k.pub with | some p => decide (q ≤ p) | none => false)
    | none => some false
  else
    match s.fabric.awaits.find? fun r => r.1 == s.focus && r.2.1 == i with
    | none => none
    | some r => some (r.2.2.1 && signalledBy r.2.2.2 (d.wordToken (d.epOf b) (d.localOf b) true q))

/-- The pushes of a block of step t, with the values its regions read (R127 step 4). -/
def State.pushesOf (s : State) (g : Grid) (k : Gang) (j t : Nat) : Except Trap (List Push) :=
  let gs := s.gangGrids g
  let b := g.globalOf s.fabric.eid j
  (s.fed g b).mapM fun e => do
    let d := e.1
    let xs := (d.regionElems e.2.2.1).filter fun x =>
      Grid.home gs patchLevels d (d.globalAt e.2.1 x) (some e.2.1) == (g.key, b)
    let els ← xs.mapM fun x => do
      let v ← s.ghostValue gs k t patchLevels d (d.globalAt e.2.1 x)
      pure (v.map fun v => (d.offsetOf (at_ x 0) (at_ x 1) (at_ x 2), bytesOf d.esize v.1, v.2))
    pure { sn := 0, cid := s.cid, gid := k.gid, coid := s.own.2, part := k.part, key := d.key, ep := d.epOf e.2.1, blk := e.2.1,
           region := e.2.2.1, piece := e.2.2.2, step := t, els := els.filterMap id, srcKey := g.key, started := false,
           begun := false, held := .no }

/-- Pushes that have been read join the others, numbered in their order. -/
def State.addPushes (s : State) (ps : List Push) : State :=
  { s with pushes := s.pushes ++ ps.zipIdx.map fun e => { e.1 with sn := s.fabric.nextRid + e.2 },
           fabric := { s.fabric with nextRid := s.fabric.nextRid + ps.length } }

/-- GSTEP from R127 step 3 on: it waits for its destination blocks, the Skink reads its regions, and it completes. A failed
translation of that read is a grid push's: it is raised asynchronously, once for each new failure, and the GSTEP waits
(R337, log entry 29). -/
def State.stepOn (s : State) (g : Grid) (k : Gang) (j t : Nat) : Except Stop State :=
  let b := g.globalOf s.fabric.eid j
  let ds := s.fedBlocks g b
  let q := fun d : Grid => t + 1 - d.depth
  let early := fun d : Grid => decide (t + 1 < d.depth + d.step0)
  let test := fun i => match ds[i]? with
    | some (d, blk) => if early d then some true else s.stepReached d blk (q d) i
    | none => some true
  match (List.range ds.length).find? fun i => test i == none with
  | some i =>
    match ds[i]? with
    | some (d, blk) =>
      let tok := d.wordToken (d.epOf blk) (d.localOf blk) true (q d)
      .ok (s.ask (tokenEp tok) (.syncRead tok) (.await s.focus i))
    | none => .ok s
  | none =>
    let s := s.forget
    match (List.range ds.length).find? fun i => test i == some false with
    | some i =>
      match ds[i]? with
      | some (d, blk) => .ok (s.awaitGrid (d.wordToken (d.epOf blk) (d.localOf blk) true (q d)))
      | none => .ok s
    | none =>
      match s.pushesOf g k j t with
      | .error e =>
        if (g.block j).bind (·.reported) = some e then .ok s
        else .ok ((s.setGrid (g.onBlock j fun b => { b with reported := some e })).postAsync s.cid { e with val2 := 0 })
      | .ok ps =>
        let s := s.setGrid (g.onBlock j fun b => { b with unread := false, reported := none })
        .ok ((s.addPushes ps).stepPc.retire.later (.skinkWriteLand 0))

/-- A block publishes a step (R127 steps 1 and 2, R128). -/
def State.publish (s : State) (g : Grid) (j t : Nat) : State :=
  let g := g.onBlock j fun b => { b with pub := some t, unread := true, stepper := some s.own.2 }
  let s := (s.setGrid g).advanceWord g j true (t + 1 - g.step0) (.core s.cid)
  if g.regions.isEmpty then s.advanceGhost g j (.core s.cid) else s

/-- GSTEP (R127, R266): a release at pod scope (R120). -/
def execGstep (g j : Reg) (s : State) : Host.Outcome State Fault Refusal :=
  s.checked (.gstep g j) <| s.acting (.gstep g j) true <| s.closing fun s => do
    let _ ← lift (s.regClean [g, j])
    let (gr, k, t) ← s.taggedGrid (s.x g)
    let n := (s.x j).toNat
    if n ≥ gr.localCount s.fabric.eid ∨ k.cores[n / max 1 gr.bpc]? ≠ some s.cid then
      .error (.trap { cause := .gridBlock, val := s.x j })
    else
      match gr.block n with
      | none => .error (.trap { cause := .gridBlock, val := s.x j })
      | some b =>
        let next := match b.pub with | none => decide (t = gr.step0) | some p => decide (t = p + 1)
        if next then
          s.released fun s =>
            let s := s.publish gr n t
            match s.gridOf k.part k.gid gr.handle with
            | some g3 => s.stepOn g3 k n t
            | none => .ok s
        else if b.pub = some t then
          if b.unread then s.stepOn gr k n t else .ok s.stepPc.retire
        else .error (.trap { cause := .stepWindow, val := tagValue gr.handle t })

/-- GWAIT (R266). -/
def execGwait (g j : Reg) (s : State) : Host.Outcome State Fault Refusal :=
  s.checked (.gwait g j) <| s.acting (.gwait g j) true <| s.closing fun s => do
    let _ ← lift (s.regClean [g, j])
    let (gr, _, st) ← s.taggedGrid (s.x g)
    let n := (s.x j).toNat
    match if n < gr.localCount s.fabric.eid then gr.block n else none with
    | none => .error (.trap { cause := .gridBlock, val := s.x j })
    | some b =>
      if st < gr.step0 + b.complete then .ok s.stepPc.retire
      else .ok (s.awaitGrid (gr.wordToken s.fabric.eid n false st))

/-- A live coroutine of the gang waits in a GSTEP of a grid (R267). -/
def State.stepWaits (s : State) (g : Grid) : Bool :=
  g.blocks.any fun b => b.unread && match b.stepper with
    | none => false
    | some n => s.cores.any fun c => s.partOf c.1 == g.part && (c.2.coro g.gid n).isSome

/-- GDROP (R267). -/
def execGdrop (g : Reg) (s : State) : Host.Outcome State Fault Refusal :=
  s.checked (.gdrop g) <| s.acting (.gdrop g) true <| s.closing fun s => do
    let _ ← lift (s.regClean [g])
    let (gr, k, _) ← s.taggedGrid (s.x g)
    let mine := s.gangGrids gr
    if (mine.any fun p => p.parent == gr.handle) ∨ s.stepWaits gr then
      .error (.trap { cause := .gridBusy, val := word gr.handle })
    else if s.pushes.any fun p => p.part == k.part && p.gid == k.gid && p.srcKey == gr.key then .error .wait
    else
      let s : State := { s with grids := s.grids.filter fun p => !(p.part == gr.part && p.gid == gr.gid && p.handle == gr.handle) }
      pure s.stepPc.retire

end Sys2Proof.Machine
end

