-- ==== Sys2Proof/Machine/System.lean ====
section
/-! DEFINITION. Strips, element blocks, system calls, ERET and WFM, and the fetch's own refusals
(R135, R138, R139, R141, R175 to R184, R298 to R302). -/

namespace Sys2Proof.Machine

/-- The element width of SETVL's code (R176). -/
def setvlBits (w : BitVec 3) : Nat :=
  match w.toNat with
  | 0 => 32 | 1 => 64 | 2 => 16 | 3 => 8 | _ => 4

/-- SETVL (R178): closes an open strip, sets VL, and opens a strip with a new checkpoint. It raises no fault: a poisoned xa marks xd and VL
(log entry 68). -/
def execSetvl (d a : Reg) (w : BitVec 3) (s : State) : Host.Outcome State Fault Refusal :=
  s.checked (.setvl d a w) <|
    let n := (s.x a).toNat
    s.closing fun s =>
      let bad := s.hart.ctx.xBad a
      let vl := min n (s.mvl (setvlBits w))
      let s := s.resultMarked d (word vl) bad
      let c := { s.hart.ctx.markWord vlMark bad with vl := vl, vstart := 0 }
      .ok (s.setCtx { c with strip := some (c.checkpoint c.pc) })

/-- SETTL (R180): TL := Min(xa, MVLM), and xd := TL. It raises no fault: a poisoned xa marks xd and TL (log entry 68). -/
def execSettl (d a : Reg) (s : State) : Host.Outcome State Fault Refusal :=
  let bad := s.hart.ctx.xBad a
  let tl := min (s.x a).toNat s.rows
  .next ((s.setCtx { s.hart.ctx.markWord tlMark bad with tl := tl }).resultMarked d (word tl) bad)

/-- STRIPEND (R181): closes an open strip. -/
def execStripend (s : State) : Host.Outcome State Fault Refusal := s.closing fun s => .ok s.stepPc.retire

/-- A VFETCH makes the lazy save (R302): the first of supervisor code on behalf of a coroutine. -/
def State.lazyDue (s : State) : Bool :=
  let h := s.hart
  h.level == .supervisor && !statusBit h.sstatus sppBit && !statusBit h.sstatus idleBit && !statusBit h.sstatus vlzBit

/-- THE LAZY SAVE (R302): the first VFETCH of supervisor code on behalf of a coroutine sets the coroutine's vector state
aside and clears it. -/
def State.lazySave (s : State) : State :=
  if s.lazyDue then
    s.onFocus fun h =>
      let c := h.ctx
      { h with
        lazy := some c
        sstatus := setBit h.sstatus vlzBit true
        ctx := { c with
          vn := bits h.sstatus.toNat 53 52, m := false, v := Vector.replicate 64 0, k := Vector.replicate 8 0, fmask := 0,
          vl := 0, tl := 0, vstart := 0, lps := 0, fcsr := c.fcsr &&& ~~~(0x3F : Word),
          rstat := setBit c.rstat 63 false, poison := c.poison.filter fun r => r.kind != 0 && r.kind != 1 && r.kind != 6 && r.kind != 7 } }
  else s

/-- Start an element block at an address (R45, R183): its words, its snapshot and the values it records. -/
def State.startBlock (s : State) (a : Word) : State :=
  let r := s.blockWords s.view 64 a.toNat
  s.onFocus fun h =>
    let c := h.ctx
    let b : Block :=
      { addr := a, words := r.1, fault := r.2, idx := 0, snap := (c.x.toList.drop 16), vl := c.vl, tl := c.tl,
        p := lpsGuards c.lps, rm := fcsrRm c.fcsr, vstart := 0, raise := none,
        bad := (List.range 16).filter fun i => c.xBad (Fin.ofNat 32 (16 + i)), sCount := c.sCount + flag (h.level == .user),
        inStrip := c.strip.isSome, user := h.level == .user }
    { h with blocks := h.blocks ++ [b] }

/-- VFETCH (R183): a misaligned address faults; a fifth block waits, and so does the lazy save while the context cache has no room
for its record (R302, R307). A block records VL and TL, which keep no mark there: a marked one raises POISON (log entry 68). -/
def State.fetchBlock (s : State) (a : Word) : Host.Outcome State Fault Refusal :=
  s.clean (if s.lazyDue then .ok () else s.lengthClean [vlMark, tlMark]) <|
  if a &&& 7 ≠ 0 then s.sword fun _ => .error (.trap { cause := .misaligned, val := a })
  else if s.hart.blocks.length ≥ 4 then .next s
  else if !s.lazyDue then .next (s.startBlock a).stepPc.retire
  else
    let t := s.lazySave.respill s.cid
    if t.overFull s.cid then .next { t with hart := s.hart } else .next (t.startBlock a).stepPc.retire

/-- VFETCH, PC-relative (R183). -/
def execVfetch (o : BitVec 20) (s : State) : Host.Outcome State Fault Refusal := s.fetchBlock (s.target20 o)

/-- VFETCH, register-relative (R183): it reads memory, so that a poisoned xa raises POISON (R360). -/
def execVfetchReg (a : Reg) (i : BitVec 15) (s : State) : Host.Outcome State Fault Refusal :=
  s.unpoisoned [a] <| s.fetchBlock (s.x a + i.signExtend 64)

/-- A call of the handler with a register as its value (R175): it closes the strip, retires and traps. STVAL has no poison mark, so that a
poisoned register raises POISON (R354; log entry 68). -/
def State.call (s : State) (cause : Cause) (a : Reg) : Host.Outcome State Fault Refusal :=
  s.closing fun s => do
    let _ ← lift (s.regClean [a])
    pure (s.retire.trapEntry { cause := cause, val := s.x a } { sepc := s.pc + 4 })

/-- SCALL (R175): cause SYSCALL. -/
def execScall (a : Reg) (s : State) : Host.Outcome State Fault Refusal := s.call .syscall a

/-- TRAP (R175): cause USER_TRAP. -/
def execTrap (a : Reg) (s : State) : Host.Outcome State Fault Refusal := s.call .userTrap a

/-- ERET (R300): PRIV_INSN at user level; else the return from the trap. -/
def execEret (s : State) : Host.Outcome State Fault Refusal :=
  if s.hart.level = .user then s.sword fun _ => .error (.trap { cause := .privInsn })
  else s.closing fun s => .ok s.trapReturn

/-- WFM (R300): PRIV_INSN at user level; else it closes the strip and waits. -/
def execWfm (s : State) : Host.Outcome State Fault Refusal :=
  if s.hart.level = .user then s.sword fun _ => .error (.trap { cause := .privInsn })
  else s.closing fun s => .ok (s.onFocus fun h => { h with run := .wfm })

/-- WFM may continue (R300, R323). -/
def State.wfmDone (s : State) : Bool :=
  match s.focus with
  | .hart cid h =>
    let c := s.core cid
    (c.inbox.any fun r => !r.pad) || (!c.asyncs.isEmpty && c.evhart == h) || statusBit s.hart.sstatus ppBit
  | .fw q => !(s.quad q).events.isEmpty || !(s.core (2048 + q)).asyncs.isEmpty

/-- WFM_RESUME (R300): a waiting WFM whose condition holds continues at PC + 4. -/
def execWfmResume (a : Agent) (s : State) : Host.Outcome State Fault Refusal :=
  let s := s.focusOn a
  if s.hart.run = .wfm ∧ s.wfmDone then .next ((s.onFocus fun h => { h with run := .running }).stepPc.retire) else .next s

/-- The word of `n` bytes at an address whose only fetch error is its execute kind (R135, R293). -/
def State.peekWord (s : State) (va n : Nat) : Word :=
  match s.leafFor s.view.root s.view.user false va with
  | .error _ => 0
  | .ok l => word (s.num (l.place va) n)

/-- UNALLOCATED_OPCODE (R138, R139, R142, R148): ILLEGAL and no other effect. -/
def execUnallocatedOpcode (w : BadWord) (s : State) : Host.Outcome State Fault Refusal :=
  match w with
  | .sword x => s.illegal (x.zeroExtend 64)
  | .eword x =>
    match s.hart.blocks with
    | b :: _ => if s.hart.unchecked ≠ [] then .next s else s.ewordTrap b { cause := .illegal } x
    | [] => s.illegal x

/-- FETCH_FAULT (R135): the fetch of the block's next E-word, or of the S-word at PC, faults at that word. -/
def execFetchFault (t : Trap) (s : State) : Host.Outcome State Fault Refusal :=
  match s.hart.blocks with
  | b :: _ =>
    if b.words.length ≤ b.idx then
      if s.hart.unchecked ≠ [] then .next s
      else s.ewordTrap b t (if t.cause = .illegal then s.peekWord (b.addr.toNat + 8 * b.idx) 8 else 0)
    else .next s
  | [] => .next (s.swordTrap t (if t.cause = .illegal then s.peekWord s.pc.toNat 4 else 0))

end Sys2Proof.Machine
end

