-- ==== Sys2Proof/Machine/VMem.lean ====
section
/-! DEFINITION. Vector memory instructions (R210 to R228): element addresses, checks, loads, pending stores, the remote
forms, the step-tagged forms, VSQ and VPREF. -/

namespace Sys2Proof.Machine

/-- A snapshot entry of the block. -/
def Block.entry (b : Block) (i : Nat) : Nat := (b.snap.getD (i % 16) 0).toNat

/-- The base with its offset: B + 8 * OFF (R210, R212). -/
def baseOf (b : Block) (w : EWord) (offset : Bool) : Word :=
  word (b.entry (bits w.fn.toNat 12 9)) +
    if offset then (BitVec.ofInt 64 (signedOf 6 (bits w.fn.toNat 5 0))) * 8 else 0

/-- Element i of the index register (R212). -/
def indexOf (c : Ctx) (w : EWord) (i : Nat) : Nat := elem (c.vreg w.vb) (if bit w.fn.toNat 6 then 64 else 32) i

/-- The address of element i of a unit-stride form (R212). -/
def unitAddr (b : Block) (w : EWord) (i : Nat) : Nat :=
  (baseOf b w true + word (i * etypeBits (etypeOf w.ty) / 8)).toNat

/-- The address of element i of a strided form with the stride `t` (R212). -/
def strideAddr (b : Block) (w : EWord) (offset : Bool) (t : Nat) (i : Nat) : Nat :=
  (baseOf b w offset + word i * word t).toNat

/-- The address of element i of an indexed form (R212). -/
def indexAddr (b : Block) (c : Ctx) (w : EWord) (i : Nat) : Nat :=
  (baseOf b w true + word (indexOf c w i) * word (etypeBits (etypeOf w.ty) / 8)).toNat

/-- Bytes an element touches: a 4-bit element lies in one byte (R64, R212). -/
def elemBytes (w : EWord) : Nat := max 1 (etypeBits (etypeOf w.ty) / 8)

/-- Active elements from VSTART up (R52, R214). -/
def State.memElems (s : State) (b : Block) (w : EWord) : List Nat :=
  (b.active s.hart.ctx w).filter fun i => decide (s.hart.ctx.vstart ≤ i)

/-- The trap of an element carries its address and its index (R213, R297). -/
def elemTrap (t : Trap) (va i : Nat) : Trap := if t = hostWait then t else { t with val := word va, val2 := word i }

/-- One element's access: its places, with notices for tier pages under TIERNOTE (R97, R213). A store is no access before its commit
(R109), which takes its notices. -/
def State.elemAccess (s : State) (va n i : Nat) (write : Bool) : Except Trap (State × Spot) := do
  match s.locate s.view va n 1 write with
  | .error t => .error (elemTrap t va i)
  | .ok p =>
    match if write then .ok () else s.afterLoops p.locs, s.tierUse p va with
    | .error t, _ | _, .error t => .error (elemTrap t va i)
    | .ok _, .ok t => pure (if write then s else t, p)

/-- The value of a loaded element with its poison (R109, R215, R360). -/
def State.loaded (s : State) (w : EWord) (p : Spot) (i : Nat) : Nat × Bool :=
  let x := ofBytes (p.locs.map s.seen)
  let x := if etypeBits (etypeOf w.ty) = 4 then (if i % 2 = 0 then x % 16 else x / 16) else x
  (x, p.locs.any s.seenBad)

/-- What the elements of a load came to: the loaded elements, those a speculative form gives up, and the first fault. -/
structure Gathered where
  state : State
  els : List (Nat × Nat × Nat × Bool)
  given : List Nat
  fault : Option (Nat × Trap)

/-- Load the elements in index order (R213 to R217); under `spec` a fault only marks its element. An element that waits for a host
port (R387) faults in no form: the load stops at it and waits. -/
def State.gather (s : State) (w : EWord) (spec : Bool) (addr : Nat → Nat) (els : List Nat) : Gathered :=
  els.foldl (fun g i =>
    match g.fault with
    | some _ => g
    | none =>
      match g.state.elemAccess (addr i) (elemBytes w) i false with
      | .ok (t, p) =>
        let v := t.loaded w p i
        { g with state := t, els := g.els ++ [(i, v.1, 0, v.2)] }
      | .error t =>
        if spec && t != hostWait then { g with els := g.els ++ [(i, 0, 0, false)], given := g.given ++ [i] }
        else { g with fault := some (i, t) }) { state := s, els := [], given := [], fault := none }

/-- Set bits of FMASK (R216). -/
def Ctx.markFmask (c : Ctx) (l : List Nat) : Ctx := { c with fmask := l.foldl (fun x i => x ||| 2 ^ i) c.fmask }

/-- The end of a load: with a fault and no strip open, the elements below it took effect and VSTART is its index; with a
strip open, or while an element waits for a host port, nothing took effect (R214, R387). -/
def State.endLoad (s : State) (w : EWord) (g : Gathered) : Except Stop Done :=
  let width := etypeBits (etypeOf w.ty)
  let t := g.state.setCtx (g.state.hart.ctx.markFmask g.given)
  match g.fault with
  | none => .ok (t.writeV w.vd width g.els)
  | some (i, tr) =>
    if tr = hostWait then .error .wait
    else if s.hart.ctx.strip.isSome then .error (.trap tr)
    else
      let d := t.writeV w.vd width g.els
      .ok { d with state := d.state.setCtx { d.state.hart.ctx with vstart := i }, fault := some tr }

/-- Memory E-words read their governing mask and index register as ordinary sources (R360). -/
def State.memSources (s : State) (b : Block) (w : EWord) (index : Bool) : Except Stop Unit := do
  let _ ← s.hart.ctx.poisonRead (maskSrc w) (List.range b.vl)
  if index then s.hart.ctx.poisonRead [(0, w.vb.toNat, if bit w.fn.toNat 6 then 64 else 32)] (b.active s.hart.ctx w)
  else pure ()

/-- A load runs as its speculative form unless NOSPEC is set (R301). -/
def State.spec (s : State) (w : EWord) : Bool := bit w.fn.toNat 7 && !statusBit s.hart.sstatus nospecBit

/-- A local load (R215, R216). -/
def State.loadV (s : State) (b : Block) (w : EWord) (index : Bool) (addr : Nat → Nat) : Except Stop Done := do
  let _ ← s.memSources b w index
  s.endLoad w (s.gather w (s.spec w) addr (s.memElems b w))

/-! ### Remote requests (R223 to R225) -/

/-- log2 of the element size. -/
def eszOf (w : EWord) : Nat := Nat.log2 (elemBytes w)

/-- The request of a remote form: kinds 1 VLDS, 2 VLDX, 3 VSTS, 4 VSTX (R376), with the bypass choice by its footprint (R100). -/
def State.request (s : State) (b : Block) (w : EWord) (kind : Nat) : VecReq :=
  let c := s.hart.ctx
  let els := s.memElems b w
  let width := etypeBits (etypeOf w.ty)
  let stride : Word := if w.xs then word (b.scalar w) else 0
  let foot := b.vl * (if kind = 1 ∨ kind = 3 then stride.toInt.natAbs else elemBytes w)
  { kind := kind, esz := eszOf w, ixw := bit w.fn.toNat 6, byp := decide (c.cbyp < foot), vl := b.vl, base := baseOf b w false,
    stride := stride, act := (List.range b.vl).map els.contains,
    idx := if kind = 2 ∨ kind = 4 then els.map (indexOf c w) else [],
    data := if kind ≥ 3 then els.map (elem (c.vreg w.va) width) else []
    bad := if kind ≥ 3 then els.filter (c.poisoned 0 w.va.toNat width) else []
    reserved := 0 }

/-- The endpoint of a remote form: bits [12:0] of its register (R223). -/
def endpointOf (b : Block) (w : EWord) : Nat := b.entry (bits w.fn.toNat 3 0) % 8192

/-- REMOTE_LENGTH (R223). -/
def lengthCheck (v : VecReq) : Except Stop Unit :=
  let u := unitsOf (vecPayload v)
  if v.vl > 256 ∨ u > 5 then .error (.trap { cause := .remoteLength, val := word v.vl, val2 := word u }) else .ok ()

/-- The bytes a remote load reads. -/
def vecBytes (v : VecReq) : List Nat :=
  let act := (List.range v.vl).filter fun i => v.act.getD i false
  (List.range act.length).flatMap fun r =>
    (List.range (2 ^ v.esz)).map fun k => (vecAddr v (act.getD r 0) r + k) % 2 ^ 64

/-- A byte that the coroutine's combining-buffer lines hold, with its poison (R113). -/
def State.combByte (s : State) (ep a : Nat) : Option (Byte × Bool) :=
  ((s.core s.cid).comb.find? fun l => l.ep == ep && l.owner == s.own && l.line == a / 64).bind fun l =>
    (l.bytes.lookup (a % 64)).map fun b => (b, l.bad.contains (a % 64))

/-- The byte that a pending element of a remote store gives an address of an endpoint (R109, R223). -/
def Pend.remoteByte (p : Pend) (ep a : Nat) : Option (Byte × Bool) :=
  p.remote.bind fun r =>
    let off := (a + 2 ^ 64 - p.addr.toNat) % 2 ^ 64
    if r.1 = ep ∧ off < 2 ^ r.2.esz then
      let rank := ((List.range p.idx).filter fun i => r.2.act.getD i false).length
      some ((bytesOf (2 ^ r.2.esz) (r.2.data.getD rank 0)).getD off 0, p.poisoned)
    else none

/-- A byte of another endpoint that the coroutine's own stores give: the last pending one, else its combining-buffer line's, else `under`,
with its poison (R109, R113). At the device's own EID its pending local stores give bytes too; one of 4 bits lies over the byte below it, and
gives none where that is not known (R105, R106). -/
def State.ownByte (s : State) (ep a : Nat) (under : Option (Byte × Bool)) : Option (Byte × Bool) :=
  let under := (s.combByte ep a).or under
  match if ep = s.fabric.eid then s.loopPlace false a else none with
  | none => (s.hart.pend.reverse.findSome? fun p => p.remoteByte ep a).or under
  | some l =>
    let covered := (s.ownPend.flatMap fun p => p.bytes.filter (·.1 == l)).foldl (fun m e => m ||| e.2.2) 0
    if covered = 0 then under
    else if covered = 255 then some (pendingByte s.ownPend l 0, pendingBad s.ownPend l ((under.map (·.2)).getD (s.poisonAt l)))
    else under.map fun u => (pendingByte s.ownPend l u.1, pendingBad s.ownPend l u.2)

/-- The coroutine is set aside by a forced rollback: its strip restarts, and it is saved with the strip open (R32, R59). -/
def State.rollbackSave (s : State) (w : WaitFor) (met : Bool) : State := (s.onFocus Hart.restart).saveFull w met

/-- The elements of a remote load from its bytes in order, each with its poison. -/
def remoteEls (w : EWord) (els : List Nat) (bs : List (Byte × Bool)) : List (Nat × Nat × Nat × Bool) :=
  let n := elemBytes w
  els.zipIdx.map fun e =>
    let mine := (bs.drop (n * e.2)).take n
    (e.1, ofBytes (mine.map (·.1)), 0, mine.any (·.2))

/-- A remote load (R224): it takes its bytes from the coroutine's own pending and buffered stores where these cover them all (R109,
R113); DESIGN CHOICE (log entry 88): it then sends nothing and draws nothing also where pending stores cover them, which R113 says of
buffered ones only. It follows the coroutine's buffered and queued stores to the endpoint (R106, R114), and waits for those to its bytes
to be acknowledged (R225); it draws its units, and holds the E-word until the response. With too few units a coroutine at user level with a strip open awaits the allowance; any other hart is held. -/
def State.loadRemote (s : State) (b : Block) (w : EWord) (kind : Nat) : Except Stop Done := do
  let _ ← s.memSources b w (kind == 2)
  if (s.memElems b w).isEmpty then pure { state := s }
  else
    let v := s.request b w kind
    let _ ← lengthCheck v
    let ep := endpointOf b w
    let u := unitsOf (vecPayload v)
    let as := vecBytes v
    if as.all fun a => (s.ownByte ep a none).isSome then
      pure (s.writeV w.vd (etypeBits (etypeOf w.ty)) (remoteEls w (s.memElems b w) (as.map fun a => (s.ownByte ep a none).getD (0, false))))
    else if s.combFor ep then do
      let t ← s.sendOwn (·.ep == ep)
      pure { state := t, stay := true }
    else if s.storeInFlight ep as || s.storeQueued ep then .error .wait
    else
      let aside := s.hart.ctx.strip.isSome && s.canSwitch
      let who : UnitOwner := if aside then .coro s.cid s.own.1 s.own.2 else .hart s.focus
      match s.draw who ep u with
      | some t =>
        pure { state := (t.send s.cid ep (.vec v) (.vload s.focus)).onFocus fun h =>
                 { h with run := .remote s.fabric.nextRid }, stay := true }
      | none =>
        let t := s.queueFor who ep u
        if aside then pure { state := t.rollbackSave (.allowance ep u (s.groupOf ep)) false, stay := true }
        else pure { state := t.onFocus fun h => { h with run := .units ep u }, stay := true }

/-! ### Stores -/

/-- The pending stores of a store E-word, in index order, with the first fault (R213, R219). -/
def State.scatter (s : State) (w : EWord) (addr : Nat → Nat) (els : List Nat) : State × List Pend × Option (Nat × Trap) :=
  let c := s.hart.ctx
  let width := etypeBits (etypeOf w.ty)
  els.foldl (fun (g : State × List Pend × Option (Nat × Trap)) i =>
    match g.2.2 with
    | some _ => g
    | none =>
      match g.1.elemAccess (addr i) (elemBytes w) i true with
      | .error t => (g.1, g.2.1, some (i, t))
      | .ok (t, p) =>
        let x := elem (c.vreg w.va) width i
        let bs := if width = 4 then p.locs.map fun l => if i % 2 = 0 then (l, x, 15) else (l, x * 16, 240)
          else (p.locs.zip (bytesOf (width / 8) x)).map fun e => (e.1, e.2.toNat, 255)
        (t, g.2.1 ++ [{ idx := i, addr := word (addr i), bytes := bs, lines := p.lines, remote := none,
                        poisoned := c.poisoned 0 w.va.toNat width i, whole := [], tiers := p.tiers }], none)) (s, [], none)

/-- The elements of one store E-word fill a memory word with clean bytes (R360). -/
def fillsWord (ps : List Pend) (l : Loc) : Bool :=
  (l.run 8).all (fun k => ps.foldl (fun m p => p.bytes.foldl (fun m b => if b.1 = k then m ||| b.2.2 else m) m) 0 == 255)
  && ps.all fun p => !(p.poisoned && p.bytes.any (·.1.word == l))

/-- The pending elements of one store E-word, each with the words that it is the last to fill (R360). -/
def endWords (ps : List Pend) : List Pend :=
  ps.zipIdx.map fun e =>
    let ws := (e.1.bytes.map (·.1.word)).dedup.filter fun l =>
      !((ps.drop (e.2 + 1)).any fun q => q.bytes.any (·.1.word == l)) && fillsWord ps l
    { e.1 with whole := ws }

/-- Add pending stores (R219). -/
def State.addPend (s : State) (ps : List Pend) : State := s.onFocus fun h => { h with pend := h.pend ++ ps }

/-- What a lane check of a store covers (R355): the pending elements it added, as kind 5 with their place in the queue. -/
def State.pendGroups (s : State) (width : Nat) (ps : List Pend) : List Group :=
  let els := ps.zipIdx
  groupsOf width (· % s.lanes) (fun g => (els.filter fun e => egroup width e.1.idx == g).map fun e =>
    { kind := 5, num := e.1.idx, word := s.hart.pend.length + e.2 }) (ps.map fun p => (p.idx, 0))

/-- The end of a store (R214): elements below a fault stay pending only with no strip open, pass their check (R355) and commit with the
block. -/
def State.endStore (s : State) (w : EWord) (r : State × List Pend × Option (Nat × Trap)) : Except Stop Done :=
  let ps := endWords r.2.1
  let groups := s.pendGroups (etypeBits (etypeOf w.ty)) ps
  match r.2.2 with
  | none => .ok { state := r.1.addPend ps, groups := groups }
  | some (i, tr) =>
    if tr = hostWait then .error .wait
    else if s.hart.ctx.strip.isSome then .error (.trap tr)
    else
      let t := r.1.addPend ps
      .ok { state := t.setCtx { t.hart.ctx with vstart := i }, fault := some tr, groups := groups }

/-- A local store (R219). -/
def State.storeV (s : State) (b : Block) (w : EWord) (index : Bool) (addr : Nat → Nat) : Except Stop Done := do
  let _ ← s.memSources b w index
  s.endStore w (s.scatter w addr (s.memElems b w))

/-- A remote store: its elements become pending; the request leaves at their commit (R223, R225). -/
def State.storeRemote (s : State) (b : Block) (w : EWord) (kind : Nat) : Except Stop Done := do
  let _ ← s.memSources b w (kind == 4)
  let els := s.memElems b w
  if els.isEmpty then pure { state := s }
  else
    let v := s.request b w kind
    let _ ← lengthCheck v
    let ep := endpointOf b w
    let ps : List Pend := (List.range els.length).map fun r =>
      let i := els.getD r 0
      { idx := i, addr := word (vecAddr v i r), bytes := [], lines := [], remote := some (ep, v),
        poisoned := s.hart.ctx.poisoned 0 w.va.toNat (etypeBits (etypeOf w.ty)) i, whole := [], tiers := [] }
    pure { state := s.addPend ps, groups := s.pendGroups (etypeBits (etypeOf w.ty)) ps }

/-- VLD (R215, R216): a unit-stride load. -/
def execVld (w : EWord) (s : State) : Host.Outcome State Fault Refusal :=
  s.eword (.vld w) fun b w => s.loadV b w false (unitAddr b w)

/-- VLDS (R212, R223): a strided load, or its remote form. -/
def execVlds (w : EWord) (s : State) : Host.Outcome State Fault Refusal :=
  s.eword (.vlds w) fun b w =>
    if bit w.fn.toNat 8 then s.loadRemote b w 1 else s.loadV b w false (strideAddr b w true (b.scalar w))

/-- VLDX (R212, R223): an indexed load, or its remote form. -/
def execVldx (w : EWord) (s : State) : Host.Outcome State Fault Refusal :=
  s.eword (.vldx w) fun b w =>
    if bit w.fn.toNat 8 then s.loadRemote b w 2 else s.loadV b w true (indexAddr b s.hart.ctx w)

/-- VLDFF (R217, R218): the elements below the first that would fault load, and VL becomes its index; element 0 faults. An element that
waits for a host port would not fault, so the load waits for it (R387). -/
def execVldff (w : EWord) (s : State) : Host.Outcome State Fault Refusal :=
  s.eword (.vldff w) fun b w => do
    let _ ← s.memSources b w false
    let g := s.gather w false (unitAddr b w) (s.memElems b w)
    match g.fault with
    | none => s.endLoad w g
    | some (i, t) =>
      if i = 0 ∨ t = hostWait then s.endLoad w g
      else
        let d := g.state.writeV w.vd (etypeBits (etypeOf w.ty)) g.els
        pure { d with state := d.state.onFocus fun h =>
          { h with ctx := { h.ctx with vl := i },
                   blocks := match h.blocks with | b :: r => { b with vl := i } :: r | [] => [] } }

/-- The address of element i of a form with a stride selector: SIX under STR (R210, R212). -/
def selAddr (b : Block) (w : EWord) (i : Nat) : Nat :=
  if bit w.fn.toNat 8 then strideAddr b w false (b.entry (bits w.fn.toNat 3 0)) i else unitAddr b w i

/-- The grid and the step of a tag register; a handle of no grid of the gang raises GRID_HANDLE (R226). -/
def State.tagOf (s : State) (b : Block) (w : EWord) : Except Stop (Grid × Gang × Nat) :=
  let tag := b.scalar w
  let h := bits tag 47 32
  let st := bits tag 31 0
  match s.cid?, s.hart.occ with
  | some cid, some (gid, _) =>
    match s.gridOf (s.partOf cid) gid h, s.gangOn cid gid with
    | some g, some k => .ok (g, k, st)
    | _, _ => .error (.trap { cause := .gridHandle, val := tagValue h st })
  | _, _ => .error (.trap { cause := .gridHandle, val := tagValue h st })

/-- The first element of a VLDG that fails its address or its window check (R226 rule 2). -/
def State.tagFault (s : State) (w : EWord) (addr : Nat → Nat) (bad : Nat → Bool) (handle st : Nat) (write : Bool)
    (els : List Nat) : Option (Nat × Trap) :=
  els.findSome? fun i =>
    match s.elemAccess (addr i) (elemBytes w) i write with
    | .error t => some (i, t)
    | .ok _ => if bad i then some (i, { cause := .stepWindow, val := tagValue handle st, val2 := word (addr i) }) else none

/-- VLDG (R226): a step-tagged load; a stale element holds the hart or faults by the grid's policy, and then no element writes its
destination (R130). -/
def execVldg (w : EWord) (s : State) : Host.Outcome State Fault Refusal :=
  s.eword (.vldg w) fun b w => if (s.memElems b w).isEmpty then .ok { state := s } else do
    let _ ← s.memSources b w false
    let (g, k, st) ← s.tagOf b w
    let els := s.memElems b w
    let addr := selAddr b w
    let ep := s.fabric.eid
    let test := fun i => g.loadTest k s.cid ep (addr i) st
    match s.tagFault w addr (fun i => test i == .window) g.handle st false els with
    | some f => s.endLoad w { s.gather w false addr (els.takeWhile (· != f.1)) with fault := some f }
    | none =>
      match els.findSome? fun i => match test i with | .stale j => some (i, j) | _ => none with
      | none => s.endLoad w ((s.onFocus fun h => { h with run := .running }).gather w false addr els)
      | some (i, j) =>
        let tr : Trap := { cause := .staleHalo, val := tagValue g.handle st, val2 := word (addr i) }
        if g.faultPolicy then .error (.trap tr)
        else pure { state := s.onFocus fun h => { h with run := .stall (g.wordToken ep j false st) }, stay := true }

/-- VPREF (R228): no access and no effect on any register or memory. -/
def execVpref (w : EWord) (s : State) : Host.Outcome State Fault Refusal :=
  s.eword (.vpref w) fun _ _ => .ok { state := s, clearV := false }

/-- VST (R219): a unit-stride store. -/
def execVst (w : EWord) (s : State) : Host.Outcome State Fault Refusal :=
  s.eword (.vst w) fun b w => s.storeV b w false (unitAddr b w)

/-- VSTS (R219, R223): a strided store, or its remote form. -/
def execVsts (w : EWord) (s : State) : Host.Outcome State Fault Refusal :=
  s.eword (.vsts w) fun b w =>
    if bit w.fn.toNat 8 then s.storeRemote b w 3 else s.storeV b w false (strideAddr b w true (b.scalar w))

/-- VSTX (R219, R223): an indexed store, or its remote form. -/
def execVstx (w : EWord) (s : State) : Host.Outcome State Fault Refusal :=
  s.eword (.vstx w) fun b w =>
    if bit w.fn.toNat 8 then s.storeRemote b w 4 else s.storeV b w true (indexAddr b s.hart.ctx w)

/-- VSTG (R227): a step-tagged store. -/
def execVstg (w : EWord) (s : State) : Host.Outcome State Fault Refusal :=
  s.eword (.vstg w) fun b w => if (s.memElems b w).isEmpty then .ok { state := s } else do
    let _ ← s.memSources b w false
    let (g, k, st) ← s.tagOf b w
    let els := s.memElems b w
    let addr := selAddr b w
    match s.tagFault w addr (fun i => !g.storeTest k s.cid s.fabric.eid (addr i) st) g.handle st true els with
    | some f =>
      let r := s.scatter w addr (els.takeWhile (· != f.1))
      s.endStore w (r.1, r.2.1, some f)
    | none => s.endStore w (s.scatter w addr els)

/-- VSQ.COMMIT (R220): with a strip open and VL > 0, pending elements below VL and active commit and the others are
discarded; it completes when none of them has to wait (R225). -/
def execVsqCommit (w : EWord) (s : State) : Host.Outcome State Fault Refusal :=
  s.eword (.vsqCommit w) fun b w => do
    let c := s.hart.ctx
    if c.strip.isNone ∨ b.vl = 0 then pure { state := s }
    else
      let _ ← c.poisonRead (maskSrc w) (List.range b.vl)
      let t := s.commitThese (s.hart.pend.filter fun p => p.idx < b.vl && c.active w p.idx)
      pure { state := t, stay := !t.hart.pend.isEmpty }

/-- VSQ.DROP (R221): with a strip open and VL > 0, every pending store is discarded. -/
def execVsqDrop (w : EWord) (s : State) : Host.Outcome State Fault Refusal :=
  s.eword (.vsqDrop w) fun b _ =>
    if s.hart.ctx.strip.isNone ∨ b.vl = 0 then .ok { state := s }
    else .ok { state := s.onFocus fun h => { h with pend := [] } }

end Sys2Proof.Machine
end

