-- ==== Sys2Proof/Machine/Wake.lean ====
section
/-! DEFINITION. Events of sync words: wake notices, re-reads, contributions and held contributions (R88, R91, R399). -/

namespace Sys2Proof.Machine

/-- The tokens a waiting coroutine holds on a granule of an endpoint. -/
def Coro.tokensOn (k : Coro) (ep gran : Nat) : List (Nat × Word) :=
  match k.wait with
  | .token toks _ _ _ _ _ _ => toks.zipIdx.filterMap fun t =>
      if tokenEp t.1 = ep ∧ tokenGran t.1 = gran then some (t.2, t.1) else none
  | _ => []

/-- Mark a waiting coroutine's tokens: the token whose word was found with V = 0, or tokens of another endpoint that are
signalled. -/
def Coro.tokenFound (k : Coro) (uninit : Option Word) (hits : List Nat) : Coro :=
  match k.wait with
  | .token toks i l u hs d r => { k with wait := .token toks i l (u.or uninit) (hs ++ hits) d r }
  | _ => k

/-- THE TEST of a core's waiting coroutines against a word's V and GEN (R89, R91): those whose token is signalled become
ready, all of them where V = 0. Whether some still wait on the word. -/
def State.testTokens (s : State) (cid ep gran : Nat) (v : Bool) (gen : Nat) : State × Bool :=
  let mine := (s.core cid).coros.filter fun k => !k.met && k.tokensOn ep gran != []
  mine.foldl (fun (a : State × Bool) k =>
    let hits : List Nat := ((k.tokensOn ep gran).filter fun t => signalledBy gen t.2).map (·.1)
    if !v then ((a.1.onCoro cid k.gid k.coid fun k => k.tokenFound ((k.tokensOn ep gran).head?.map (·.2)) []).ready cid k.gid k.coid, a.2)
    else if !hits.isEmpty then
      let t := if ep = s.fabric.eid then a.1 else a.1.onCoro cid k.gid k.coid fun k => k.tokenFound none hits
      (t.ready cid k.gid k.coid, a.2)
    else (a.1, true)) (s, false)

/-- A core tests the tokens its coroutines hold on a word of this endpoint, and registers again for those not signalled. DESIGN
CHOICE (log entry 64): the spec does not say what the core does where the word has become unreachable; here the coroutine goes on
waiting, without a registration. -/
def State.retest (s : State) (cid gran : Nat) : State :=
  let root := (s.rootsOf (s.partOf cid)).1
  match s.granSpot root true false gran with
  | .error _ => s
  | .ok l =>
    let r := s.testTokens cid s.fabric.eid gran (s.syncV l) (s.syncGen l)
    if r.2 then r.1.register cid root true (tokenOf s.fabric.eid gran 0) else r.1

/-- WAKE_NOTICE (R91). -/
def execWakeNotice (cid gran : Nat) (s : State) : Host.Outcome State Fault Refusal := .next (s.retest cid gran)

/-- The tokens of other endpoints on a granule that coroutines of a core wait for, one for each endpoint. -/
def Core.remoteTokens (c : Core) (own gran : Nat) : List Word :=
  let all := c.coros.flatMap fun k => if k.met then [] else match k.wait with
    | .token toks _ _ _ _ _ _ => toks.filter fun t => tokenGran t == gran && tokenEp t != own
    | _ => []
  all.foldl (fun l t => if l.any (tokenEp · == tokenEp t) then l else l ++ [t]) []

/-- WAITER_REREAD (R91): a core without a registration reads the word again, at each endpoint where its coroutines wait on the
granule. -/
def execWaiterReread (cid gran : Nat) (s : State) : Host.Outcome State Fault Refusal :=
  .next (((s.core cid).remoteTokens s.fabric.eid gran).foldl (fun t k => t.register cid 0 true k) (s.retest cid gran))

/-- The partition under whose UROOT a contributor's token is translated (R90). -/
def State.contributorPart (s : State) (tok : Word) (who : Contributor) : Nat :=
  match who with
  | .core c => s.partOf c
  | .launch q => match s.gangs.find? fun g => g.quad == q && g.donek == tok with | some g => g.part | none => 0
  | .remote _ p => p
  | .controller => 0

/-- CONTRIBUTE (R88): a contribution reaches the home unit of its word. -/
def execContribute (tok : Word) (n : Nat) (by_ : Contributor) (s : State) : Host.Outcome State Fault Refusal :=
  let part := s.contributorPart tok by_
  let r := s.contributorRoot by_ part
  .next (s.sourced (.contribute tok n by_) (s.contribute tok n by_ part r.1 r.2 0))

/-- Held contributions in order: those that can be made are made, and one of an agent to a word waits behind an earlier one
(R399). The flag says that some wait for a lease. -/
def State.rewalkHeld (s : State) : List HeldContribution → List HeldContribution → State × Bool
  | [], _ => (s, false)
  | h :: hs, before =>
    if before.any h.sameAs then s.rewalkHeld hs (before ++ [h])
    else
      match s.makeContribution h with
      | .ok t =>
        let t : State := { t with heldContributions := t.heldContributions.erase h }
        (t.copyDone h.xfer).rewalkHeld hs before
      | .error .wait => let r := s.rewalkHeld hs (before ++ [h]); (r.1, true)
      | .error (.trap t) =>
        if h.reported = some t then s.rewalkHeld hs (before ++ [h])
        else
          let h2 := { h with reported := some t }
          let u : State := { s with heldContributions := s.heldContributions.map fun k => if k == h then h2 else k }
          (u.reportUnreachable h t).rewalkHeld hs (before ++ [h2])

/-- HELD_CONTRIBUTION_REWALK (R399): the held contributions from the n-th on walk again. -/
def execHeldContributionRewalk (n : Nat) (s : State) : Host.Outcome State Fault Refusal :=
  let r := s.rewalkHeld (s.heldContributions.drop n) (s.heldContributions.take n)
  .next (if r.2 then r.1.retry (.heldContributionRewalk 0) else r.1)

end Sys2Proof.Machine
end

