-- ==== Sys2Proof/Machine/Switch.lean ====
section
/-! DEFINITION. Events of scheduling: the choice of a coroutine, context fetches, quantum switches, pre-emption and the
operations of CTXOP, and the delivery of traps (R26 to R33, R130, R241, R251, R298, R304 to R307). -/

namespace Sys2Proof.Machine

/-! ### What runs (R29 to R32) -/

/-- HART_SELECT (R30): an idle hart runs the coroutine it chooses; one whose saved context still waits for room chooses none (R29,
R307), and none is chosen while its partition drains (R345). -/
def execHartSelect (cid h : Nat) (s : State) : Host.Outcome State Fault Refusal :=
  let t := (s.focusOn (.hart cid h)).respill cid
  if t.hart.run ≠ .idle ∨ t.hart.occ.isSome ∨ s.halts cid then .next s
  else if t.overFull cid ∧ (t.core cid).stuck.contains h then .next t
  else
    match (t.core cid).choose h with
    | some k => .next (t.startCoro cid k)
    | none => .next t

/-- A record that its check refuses: the cause is raised once, and the coroutine stays as it is (R59, R307). -/
def State.refuseRecord (s : State) (cid : Nat) (k : Coro) (e : Cause) : State :=
  if k.refusal = some e then s
  else (s.onCoro cid k.gid k.coid fun k => { k with refusal := some e }).postAsync cid { cause := e, val := word k.coid, val2 := word k.gid }

/-- CONTEXT_FETCH (R29): a spilled coroutine's context comes back from its record, where the cache has room or another context may
leave; a thawed one enters as room allows. -/
def execContextFetch (cid gid coid : Nat) (s : State) : Host.Outcome State Fault Refusal :=
  match (s.core cid).coro gid coid with
  | none => .next s
  | some k =>
    if k.resident ∧ k.away then .next (s.takeBack cid (Config.maxCoroutines + 1))
    else if k.resident ∨ k.running ∨ !k.met then .next s
    else
      match s.recordCheck cid k with
      | some e => .next (s.refuseRecord cid k e)
      | none =>
        let t := s.onCoro cid gid coid fun _ => { s.loadRecord cid k with refusal := none }
        if !t.overFull cid then .next (t.respill cid)
        else
          match (s.core cid).victim with
          | none => .next s
          | some v =>
            if v.met && decide (v.readyAt ≤ k.readyAt) then .next s
            else
              let u := t.spill cid (Config.maxCoroutines + 1)
              .next (if u.overFull cid then s else u)

/-- PRIORITY_PROMOTE (R31): a whole 4,096 cycles of readiness raise the present class by one, up to 7. -/
def execPriorityPromote (cid gid coid : Nat) (s : State) : Host.Outcome State Fault Refusal :=
  .next (s.onCoro cid gid coid (·.aged (s.core cid).cycle))

/-- QUANTUM_EXPIRE (R32): the count reaches QUANTUM; with another coroutine ready on the hart a switch is asked for, else the
count resets. -/
def execQuantumExpire (cid h : Nat) (s : State) : Host.Outcome State Fault Refusal :=
  let c := s.core cid
  let other := c.coros.any fun k => k.home == h && !k.running && k.met && !k.pre
  let k := s.hartOf (.hart cid h)
  if c.quantum = 0 ∨ k.occ.isNone ∨ k.ran < c.quantum then .next s
  else .next (s.onHart (.hart cid h) fun k => if other then { k with switchReq := true } else { k with ran := 0 })

/-- The coroutine in view stands at a strip boundary at user level, every block done and every lane checked (R32, R33). -/
def State.atBoundary (s : State) : Bool :=
  s.hart.occ.isSome && s.hart.level == .user && s.hart.run == .running && s.hart.ctx.strip.isNone && s.hart.blocks.isEmpty
  && s.hart.unchecked.isEmpty

/-- The strip in view can restart now: one is open, none of its stores has committed (R177), every lane is checked (R307, R356), and no
request of it is unanswered (R33, R121). -/
def State.canRestart (s : State) : Bool :=
  s.hart.ctx.strip.isSome && !s.hart.committing && s.hart.unchecked.isEmpty && (match s.hart.run with | .running | .stall _ | .ring => true | _ => false)

/-- The coroutine in view can be taken by forced rollback (R33). -/
def State.canRollBack (s : State) : Bool := s.hart.occ.isSome && s.hart.level == .user && s.canRestart

/-- QUANTUM_SWITCH (R32): the switch asked for, at a strip boundary; QUANTUM = 0 disables it. -/
def execQuantumSwitch (cid h : Nat) (s : State) : Host.Outcome State Fault Refusal :=
  let t := s.focusOn (.hart cid h)
  if (t.core cid).quantum = 0 then .next (t.onFocus fun h => { h with switchReq := false })
  else if t.hart.switchReq ∧ t.atBoundary then .next (t.saveFull .ready true) else .next s

/-- FORCED_ROLLBACK (R32): no boundary came within a further QUANTUM; the open strip restarts and the coroutine leaves with
the strip open at its checkpoint. QUANTUM = 0 disables it. -/
def execForcedRollback (cid h : Nat) (s : State) : Host.Outcome State Fault Refusal :=
  let t := s.focusOn (.hart cid h)
  let q := (t.core cid).quantum
  if q ≠ 0 ∧ t.hart.switchReq ∧ t.hart.ran ≥ 2 * q ∧ t.canRollBack then .next (t.rollbackSave .ready true) else .next s

/-- A stalled VLDG's coroutine is set aside: its strip restarts and it awaits the ghost word; a word already signalled makes it ready
at once (R91, R130). -/
def State.stallSave (s : State) (cid : Nat) (tok : Word) : State :=
  (s.rollbackSave (.token [tok] false 0 none [] 0 true) false).retest cid (tokenGran tok)

/-- STALL_TIMEOUT (R130): a VLDG stalled in an open strip tests its elements once more; where one is still stale, the strip rolls back
and its coroutine awaits the ghost word. -/
def execStallTimeout (cid h : Nat) (s : State) : Host.Outcome State Fault Refusal :=
  let t := s.focusOn (.hart cid h)
  match t.hart.run, t.hart.blocks.head?.bind fun b => (b.words[b.idx]?).bind fun w => decodeE w.toNat with
  | .stall _, some (.vldg w) =>
    if t.hart.held ≥ 4096 ∧ t.canRollBack then
      match execVldg w t with
      | .next u => (match u.hart.run with | .stall tok => .next (t.stallSave cid tok) | _ => .next u)
      | o => o
    else .next s
  | _, _ => .next s

/-- MROT_WITHDRAW (R241): an MROT that has waited 4,096 cycles is withdrawn, its strip restarts and its coroutine is switched out. -/
def execMrotWithdraw (a : Agent) (s : State) : Host.Outcome State Fault Refusal :=
  let t := s.focusOn a
  if t.hart.run = .ring ∧ t.hart.held ≥ 4096 ∧ t.canRollBack then .next (t.rollbackSave .ready true) else .next s

/-! ### Pre-emption and CTXOP (R33, R304 to R307) -/

/-- The end of a CTXOP operation (R304). -/
def State.ctxDone (s : State) (cid : Nat) (err : Bool) : State := s.onCore cid fun c => { c with ctxBusy := false, ctxErr := err }

/-- The end of a CTXOP operation on a coroutine, if one is in progress: a pre-emption that a freeze or a lease asks for ends none of another. -/
def State.ctxEnd (s : State) (cid gid coid : Nat) (err : Bool := false) : State :=
  if (s.core cid).ctxBusy ∧ (s.core cid).ctxGid = gid ∧ (s.core cid).ctxCoid = coid then s.ctxDone cid err else s

/-- Combining-buffer lines of a coroutine leave at its pre-emption (R113). -/
def State.flushCoro (s : State) (cid gid coid : Nat) : State :=
  (s.sendLines cid fun l => l.owner == (gid, coid)).later (.remoteStoreSend cid)

/-- A spilled coroutine's record is brought up to date (R59). -/
def State.patchCoro (s : State) (cid gid coid : Nat) : State :=
  match (s.core cid).coro gid coid with
  | some k => s.patchRecord cid k
  | none => s

/-- A coroutine that does not run is pre-empted in its saved state (R33); RAGE keeps its time of readiness (R58), and a record in the
context region follows (R59, R62, R306). -/
def State.setPre (s : State) (cid gid coid : Nat) : State :=
  let now := (s.core cid).cycle
  let s := s.onCoro cid gid coid fun k => { k with pre := true, rage := if k.met then ((now : Int) - k.readyAt).toNat else 0 }
  ((s.cutBack cid gid coid).flushCoro cid gid coid).patchCoro cid gid coid

/-- PREEMPT (R304): a coroutine that waits or is ready is pre-empted at once; a running one is asked for, and a hart at
supervisor level shows it in SSTATUS.PP (R305). -/
def execPreempt (cid gid coid : Nat) (s : State) : Host.Outcome State Fault Refusal :=
  match (s.core cid).coro gid coid with
  | none => .next (s.ctxEnd cid gid coid true)
  | some k =>
    if k.pre then .next (s.ctxEnd cid gid coid true)
    else if !k.running then .next ((s.setPre cid gid coid).ctxEnd cid gid coid)
    else
      match (List.range 8).find? fun h => (s.hartOf (.hart cid h)).occ == some (gid, coid) with
      | none => .next (s.ctxEnd cid gid coid true)
      | some h => .next (s.onHart (.hart cid h) fun k =>
          { k with preemptReq := true, sstatus := if k.level = .user then k.sstatus else setBit k.sstatus ppBit true })

/-- The running coroutine in view is pre-empted, at a boundary or with its strip back at its checkpoint (R33); a stalled VLDG's
coroutine awaits its ghost word (R130, R133). -/
def State.takePre (s : State) : State :=
  match s.focus, s.hart.occ with
  | .hart cid _, some (gid, coid) =>
    let run := s.hart.run
    let s := s.onFocus fun h => { h with sstatus := setBit h.sstatus ppBit false, preemptReq := false }
    let s := match run with
      | .stall tok => s.saveFull (.token [tok] false 0 none [] 0 true) false
      | _ => s.saveFull .ready true
    (s.setPre cid gid coid).ctxEnd cid gid coid
  | _, _ => s

/-- PREEMPT_TAKE (R33): the coroutine is taken at its strip boundary; a waiting MROT is withdrawn (R241). -/
def execPreemptTake (cid h : Nat) (s : State) : Host.Outcome State Fault Refusal :=
  let t := s.focusOn (.hart cid h)
  if !t.hart.preemptReq then .next s
  else if t.atBoundary then .next t.takePre
  else if t.hart.run = .ring ∧ t.canRollBack then .next (t.onFocus Hart.restart).takePre
  else .next s

/-- PREEMPT_ROLLBACK (R33): with no boundary within 4,096 cycles pre-emption takes the coroutine by forced rollback. -/
def execPreemptRollback (cid h : Nat) (s : State) : Host.Outcome State Fault Refusal :=
  let t := s.focusOn (.hart cid h)
  if t.hart.preemptReq ∧ t.hart.asked ≥ 4096 ∧ t.canRollBack then .next (t.onFocus Hart.restart).takePre else .next s

/-- A pre-empted coroutine whose record passes its check is restored (R26, R307): its copies are issued again and its condition is
evaluated at once. -/
def State.enter (s : State) (cid gid coid : Nat) (k : Coro) : State :=
  let now := (s.core cid).cycle
  let s := (s.reissue cid gid coid).onCoro cid gid coid fun k =>
    { k with pre := false, refusal := none, readyAt := if k.met then (now : Int) - k.rage else k.readyAt, rage := 0 }
  let s := s.patchCoro cid gid coid
  if k.met then (if k.resident then s else s.later (.contextFetch cid gid coid))
  else
    let new := decide (k.inboxMark < (s.core cid).inboxSeen)
    match k.wait with
    | .token toks inbox _ _ _ _ _ =>
      let s := toks.foldl (fun t tok =>
        if tokenEp tok = t.fabric.eid then t.retest cid (tokenGran tok) else t.register cid 0 true tok) s
      if inbox && new then s.ready cid gid coid else s
    | .inbox _ => if new then s.ready cid gid coid else s
    | .allowance ep u _ =>
      if s.fabric.waits.any fun w => w.who == .coro cid gid coid && w.ep == ep && decide (u ≤ w.got) then s.ready cid gid coid else s
    | _ => s

/-- THE RESTORE of a pre-empted coroutine (R307): a refused record leaves it pre-empted. -/
def State.restoreCoro (s : State) (cid gid coid : Nat) : State :=
  match (s.core cid).coro gid coid with
  | none => s
  | some k =>
    match s.recordCheck cid k with
    | some e => s.refuseRecord cid k e
    | none => s.enter cid gid coid k

/-- RESTORE (R304, R307): each operation on a record that is refused raises its cause. -/
def execRestore (cid gid coid : Nat) (s : State) : Host.Outcome State Fault Refusal :=
  match (s.core cid).coro gid coid with
  | none => .next (s.ctxDone cid true)
  | some k =>
    if !k.pre then .next (s.ctxDone cid true)
    else match s.recordCheck cid k with
      | some e => .next ((s.refuseRecord cid { k with refusal := none } e).ctxDone cid true)
      | none => .next ((s.enter cid gid coid k).ctxDone cid false)

/-- A coroutine's remote stores that are buffered, queued or not acknowledged, and its messages on their way (R118, R121). -/
def State.storesOf (s : State) (cid gid coid : Nat) : Bool :=
  (s.core cid).comb.any (·.owner == (gid, coid)) || s.storesFor cid (gid, coid)

/-- What waits for a coroutine elsewhere follows it to another core. -/
def State.followCoro (s : State) (old new gid coid : Nat) : State :=
  { s with
    feHeld := s.feHeld.map fun f => match f.who with
      | .coro c g n d => if c = old ∧ g = gid ∧ n = coid then { f with who := .coro new g n d } else f
      | _ => f
    fabric := { s.fabric with
      waits := s.fabric.waits.map fun w => if w.who = .coro old gid coid then { w with who := .coro new gid coid } else w
      sent := s.fabric.sent.map fun r => match r.cont with
        | .feCoro c g n d ld => if c = old ∧ g = gid ∧ n = coid then { r with cont := .feCoro new g n d ld } else r
        | _ => r } }

/-- A spilled record of a coroutine that its check refuses goes to another core's context region as it stands (R304, R307); none where it
cannot be read, or where there is no room for it. -/
def State.moveRaw (s : State) (cid to_ : Nat) (k : Coro) : Option (State × Nat) :=
  let b := k.recordBytes k.kc
  match s.regionSpots cid k.slot b false, (s.core to_).slotFor b with
  | some src, some a => (s.regionSpots to_ a b true).map fun dst =>
      ((List.range (b / 8)).foldl (fun t i => match src[8 * i]?, dst[8 * i]? with
        | some x, some y => t.putPoison y (s.poisonAt x)
        | _, _ => t) (s.putOwn (dst.zip (src.map s.byteAt))), a)
  | _, _ => none

/-- A pre-empted coroutine's record moves to a core and takes a home hart there as a new coroutine would (R25, R304); the state in which it
waits where there is no room for it (R29). -/
def State.moveTo (s : State) (cid to_ : Nat) (k : Coro) : Except State State :=
  let gone := s.onCore cid fun c => { c with coros := c.coros.filter fun j => !(j.gid == k.gid && j.coid == k.coid) }
  let k := { k with home := (gone.core to_).home }
  if to_ = cid then .ok (s.onCoro cid k.gid k.coid fun _ => k)
  else
    let k := { k with inboxMark := (s.core to_).inboxSeen }
    if k.resident ∨ (s.recordCheck cid k).isNone then
      match gone.takeIn to_ (s.loadRecord cid k) with
      | .ok t => .ok t
      | .error _ => .error (s.noRoom to_ (k.recordBytes k.kc))
    else
      match gone.moveRaw cid to_ k with
      | some (t, a) => .ok (t.onCore to_ fun c => { c with coros := c.coros ++ [{ k with slot := a }] })
      | none => .error (s.noRoom to_ (k.recordBytes k.kc))

/-- The KC in a coroutine's record (R59). -/
def State.recordKc (s : State) (cid : Nat) (k : Coro) : Nat :=
  if k.resident then k.kc else match s.readRecord cid k with
    | some x => bits (imageNum x 0 8) 33 32
    | none => k.kc

/-- MOVE (R304): a pre-empted coroutine's record goes to core CTXARG of the same partition, after its stores have been
performed (R121), and takes a home hart there (R25). -/
def execMove (cid gid coid : Nat) (s : State) : Host.Outcome State Fault Refusal :=
  let to_ := (s.core cid).ctxarg
  match (s.core cid).coro gid coid with
  | none => .next (s.ctxDone cid true)
  | some k =>
    if !k.pre ∨ to_ ≥ Config.cores ∨ s.partOf to_ ≠ s.partOf cid ∨ (s.core to_).coros.length ≥ Config.maxCoroutines
        ∨ (s.core to_).kc ≠ s.recordKc cid k then .next (s.ctxDone cid true)
    else if s.storesOf cid gid coid then .next ((s.flushCoro cid gid coid).retry (.move cid gid coid))
    else
      match s.moveTo cid to_ k with
      | .error t => .next (t.retry (.move cid gid coid))
      | .ok t =>
        let t := if to_ = cid then t else ((t.followCoro cid to_ gid coid).fetchNext cid).respill cid
        .next (t.ctxDone cid false)

/-- DISCARD (R304): a pre-empted coroutine retires without running; its copies run on and contribute (R262), and a JOB's image is
written back from its saved registers (R318). -/
def execDiscard (cid gid coid : Nat) (s : State) : Host.Outcome State Fault Refusal :=
  match (s.core cid).coro gid coid with
  | none => .next (s.ctxDone cid true)
  | some k =>
    if !k.pre then .next (s.ctxDone cid true)
    else
      let s := s.reissue cid gid coid
      let mine := fun w : FeOwner => match w with | .coro c g n _ => c == cid && g == gid && n == coid | _ => false
      let s : State := { s with feHeld := s.feHeld.filter fun f => !mine f.who }
      let s := s.dropUnits fun w => w.who == .coro cid gid coid
      let s := s.jobEnd (s.gangOn cid gid) coid (s.loadRecord cid k).ctx
      .next ((s.retireCoro cid gid coid).ctxDone cid false)

/-! ### Traps (R251, R298) -/

/-- The agent that takes the asynchronous traps of a core: hart EVHART, or the firmware core for its own (R298). -/
def State.asyncAgent (s : State) (cid : Nat) : Agent := if cid ≥ 2048 then .fw (cid - 2048) else .hart cid (s.core cid).evhart

/-- The agent in view is not inside a trap handler that has not saved its record (R298), and not stopped by a drain (R345). -/
def State.asyncFree (s : State) : Bool := !(s.hart.level != .user && statusBit s.hart.sstatus inTrapBit) && !s.halts s.cid

/-- A trap of the agent in view, which has no coroutine, can be delivered: at a strip boundary, outside a handler that has not saved its
record (R225, R260). -/
def State.ownTrapDue (s : State) : Bool :=
  !s.hart.traps.isEmpty && s.hart.occ.isNone && s.asyncFree && s.hart.ctx.strip.isNone && s.hart.blocks.isEmpty && s.hart.unchecked.isEmpty
  && (s.hart.run == .running || s.hart.run == .idle)

/-- PENDING_TRAP_DELIVER (R251, R260): a trap of the coroutine in view at its strip boundary, or of an agent without a coroutine. -/
def execPendingTrapDeliver (a : Agent) (s : State) : Host.Outcome State Fault Refusal :=
  let t := s.focusOn a
  match t.focus, t.hart.occ with
  | .hart cid _, some (gid, coid) =>
    match ((t.core cid).coro gid coid).map (·.traps) with
    | some (tr :: r) =>
      if t.atBoundary then .next ((t.onCoro cid gid coid fun k => { k with traps := r }).trapEntry tr { sepc := t.pc }) else .next s
    | _ => .next s
  | _, _ =>
    match t.hart.traps with
    | tr :: r => if t.ownTrapDue then .next ((t.onFocus fun h => { h with traps := r }).trapEntry tr { sepc := t.pc }) else .next s
    | [] => .next s

/-- The agent in view can take an asynchronous trap: at a strip boundary, and not at supervisor or firmware level with
INTRAP = 1 (R298). -/
def State.asyncOk (s : State) : Bool :=
  s.asyncFree && s.hart.blocks.isEmpty && s.hart.unchecked.isEmpty
  && (s.hart.run == .running || s.hart.run == .idle)

/-- A trap that pended under INTRAP is due inside an open strip: at once, the strip back at its checkpoint (R298). -/
def State.pendedDue (s : State) : Bool :=
  s.hart.pended && s.hart.ctx.strip.isSome && !s.hart.committing && s.hart.unchecked.isEmpty && s.asyncFree

/-- The oldest pending asynchronous trap leaves its queue; a source that waited puts its own there (R298). -/
def Core.popAsync (c : Core) : Core :=
  { c with asyncs := c.asyncs.drop 1 ++ c.asyncsWaiting.take 1, asyncsWaiting := c.asyncsWaiting.drop 1 }

/-- ASYNC_TRAP_TAKE (R298): the oldest asynchronous trap of a core is taken at a boundary, or by forced rollback where
no boundary came within 4,096 cycles. -/
def execAsyncTrapTake (cid : Nat) (s : State) : Host.Outcome State Fault Refusal :=
  match (s.core cid).asyncs with
  | [] => .next s
  | tr :: _ =>
    let t := s.focusOn (s.asyncAgent cid)
    if t.asyncOk ∧ t.hart.ctx.strip.isNone then
      .next ((t.onCore cid Core.popAsync).trapEntry tr { isAsync := true, sepc := t.pc })
    else if t.pendedDue ∨ (t.hart.due ≥ 4096 ∧ t.asyncFree ∧ t.canRestart) then
      match t.hart.ctx.strip with
      | some k => .next (((t.onCore cid Core.popAsync).onFocus Hart.restart).trapEntry tr { isAsync := true, strip := true, sepc := k.pc })
      | none => .next s
    else .next s

end Sys2Proof.Machine
end

