-- ==== Sys2Proof/Machine/Parts.lean ====
section
/-! DEFINITION. Partition commands, freeze and thaw (R308, R328 to R331, R341 to R347, R388, R389, R400). -/

namespace Sys2Proof.Machine

/-! ### Cores and roots of a partition -/

/-- The cores of a partition, by the core map (R341). -/
def State.coresOf (s : State) (p : Nat) : List Nat := (List.range Config.cores).filter fun c => s.partOf c == p

/-- Load a partition's roots from its entry (R332, R344). -/
def State.loadRoots (s : State) (p : Nat) : State :=
  if h : p < 16 then { s with roots := s.roots.set p (s.dev8 (pcaWord p 1), s.dev8 (pcaWord p 2)) } else s

/-- Set or clear PARTHALT bit p in every quadrant (R344, R345). -/
def State.setHalt (s : State) (p : Nat) (b : Bool) : State :=
  { s with quads := s.quads.map fun q => { q with parthalt := (setBit (word q.parthalt) p b).toNat % 65536 } }

/-- Set STATE of a partition (R341). -/
def State.setPartState (s : State) (p st : Nat) : State := s.setField (pcaWord p 7) 59 56 st

/-- Every per-hart register of a core returns to its reset value (R292, R345 step 8). -/
def State.resetHarts (s : State) (cid : Nat) : State :=
  let mine := fun a : Agent => match a with | .hart c _ => c == cid | .fw _ => false
  { s with harts := s.harts.filter (fun e => !mine e.1), hart := if mine s.focus then Hart.reset s.focus else s.hart }

/-- A core reset with the CSRs that step 8 of R345 keeps; the scratchpad is not a register. -/
def Core.resetKept (c : Core) (cid : Nat) : Core :=
  { Core.reset cid with
    kc := c.kc, quantum := c.quantum, mvtbase := c.mvtbase, inboxUnits := c.inboxUnits, inboxOff := c.inboxOff,
    ovfbase := c.ovfbase, ovfSize := c.ovfSize, ovfQuota := c.ovfQuota, ctxbase := c.ctxbase, ctxsize := c.ctxsize,
    spad := c.spad, phys := c.phys, fullCheck := c.fullCheck }

/-- THE RESET OF A CORE by step 8 of R345. -/
def State.resetCore (s : State) (cid : Nat) : State := (s.resetHarts cid).onCore cid fun c => c.resetKept cid

/-- A core lease is moving the work of a core of the partition (R368). -/
def State.leaseMoving (s : State) (p : Nat) : Bool :=
  s.molt.leases.any fun l => l.kind == 1 && !l.testing && s.partOf l.cid == p

/-- The command that a partition's entry runs. -/
def State.commandRuns (s : State) (p cmd : Nat) : Bool := s.commands.any fun c => c.part == p && c.cmd == cmd

/-- A command ends (R342). -/
def State.commandDone (s : State) (p : Nat) : State :=
  ({ s with commands := s.commands.filter (·.part != p) } : State).endCommand p false

/-! ### ACTIVATE, RESET and RELEASE (R344) -/

/-- ACTIVATE (R344). -/
def execActivate (p : Nat) (s : State) : Host.Outcome State Fault Refusal :=
  if !s.commandRuns p 1 then .next s
  else
    let t := s
    let s := (s.coresOf p).foldl State.resetCore s
    .next (t.sourced (.activate p) ((((s.loadRoots p).setHalt p false).setPartState p 1).commandDone p))

/-- RESET (R344): the roots are loaded again; queues in HALT or WDOG stay. -/
def execResetPartition (p : Nat) (s : State) : Host.Outcome State Fault Refusal :=
  if !s.commandRuns p 3 then .next s
  else .next (s.sourced (.resetPartition p) ((((s.loadRoots p).setHalt p false).setPartState p 1).commandDone p))

/-- RELEASE (R344): the partition is free. -/
def execRelease (p : Nat) (s : State) : Host.Outcome State Fault Refusal :=
  if !s.commandRuns p 4 then .next s
  else
    let t : State := { s with frozenBy := s.frozenBy.filter (·.1 != p) }
    .next (s.sourced (.release p) ((t.setPartState p 0).commandDone p))

/-! ### DRAIN (R345 to R347) -/

/-- The agent belongs to one of the cores. -/
def agentOf (cs : List Nat) (a : Agent) : Bool :=
  match a with
  | .hart c _ => cs.contains c
  | .fw _ => false

/-- Who a full/empty operation belongs to is one of the cores, also where it came back over the device's own EID (R82). -/
def State.feOwnerOf (s : State) (cs : List Nat) (w : FeOwner) : Bool :=
  match w with
  | .coro c _ _ _ => cs.contains c
  | .hart a _ => agentOf cs a
  | .remote sep c _ => sep == s.fabric.eid && cs.contains c

/-- A request that waits for units belongs to one of the cores, or to a copy or push of theirs. -/
def State.unitOwnerOf (s : State) (cs : List Nat) (w : UnitOwner) : Bool :=
  match w with
  | .coro c _ _ => cs.contains c
  | .hart a => agentOf cs a
  | .copy id => s.copies.any fun c => c.id == id && cs.contains c.cid
  | .stores c => cs.contains c
  | .push i => s.pushes.any fun p => cs.contains p.cid && p.id == i

/-- A contribution made by one of the cores. -/
def contributorOf (cs : List Nat) (w : Contributor) : Bool :=
  match w with
  | .core c => cs.contains c
  | _ => false

/-- What a drain lets come to its end: copies with rows that they have begun, and started pushes (R345 steps 4 and 5). -/
structure Going where
  copies : List Copy
  pushes : List Push
  deriving DecidableEq, Repr

/-- Nothing goes on. -/
def Going.none : Going := { copies := [], pushes := [] }

/-- The copy of this transfer ID goes on. -/
def Going.copy (g : Going) (id : Word) : Bool := g.copies.any (·.id == id)

/-- The push of these names goes on. -/
def Going.push (g : Going) (i : PushId) : Bool := g.pushes.any (·.id == i)

/-- A waiting request belongs to what goes on. -/
def Going.waits (g : Going) (w : UnitOwner) : Bool :=
  match w with
  | .copy id => g.copy id
  | .push i => g.push i
  | _ => false

/-- An answer is for what goes on. -/
def Going.awaits (g : Going) (c : Cont) : Bool :=
  match c with
  | .copy id _ _ _ => g.copy id
  | .push i _ => g.push i
  | _ => false

/-- Requests of the cores no longer wait for units; the units gathered for them go on to others (R35). -/
def State.dropWaits (s : State) (cs : List Nat) (g : Going) : State := s.dropUnits fun w => s.unitOwnerOf cs w.who && !g.waits w.who

/-- A full/empty operation of one of the cores that another endpoint holds (R86). -/
def State.heldAfar (s : State) (r : OutReq) : Bool :=
  match r.cont with
  | .feCoro _ _ _ _ _ => true
  | .fe a _ _ => (s.hartOf a).run == .fe
  | _ => false

/-- What the cores' coroutines left elsewhere is discarded (R345 step 3): held full/empty operations, registrations, held
contributions, messages kept after a NACK, and the responses to requests on the fabric, which complete. -/
def State.dropCores (s : State) (cs : List Nat) (g : Going) : State :=
  let s := s.dropWaits cs g
  { s with
    feHeld := s.feHeld.filter fun f => !s.feOwnerOf cs f.who
    waiters := s.waiters.filter fun w => !contributorOf cs w.who
    heldContributions := s.heldContributions.filter fun h => !contributorOf cs h.who
    fabric := { s.fabric with
      sent := (s.fabric.sent.filter fun r => !(cs.contains r.cid && s.heldAfar r)).map fun r =>
        if cs.contains r.cid && !g.awaits r.cont then { r with cont := .wake } else r
      kept := s.fabric.kept.filter fun k => !cs.contains k.cid
      awaits := s.fabric.awaits.filter fun a => !agentOf cs a.1 } }

/-- The cores hold no records, messages, traps or buffers. -/
def State.freeCores (s : State) (cs : List Nat) : State :=
  cs.foldl (fun (t : State) c => t.onCore c fun k =>
    { k with coros := [], inbox := [], inboxW := 0, inboxSeen := 0, ovf := [], ovfW := 0, generated := [], refused := [], asyncs := [],
             asyncsWaiting := [], comb := [], outq := [], spillWaits := false, roomWaits := false, stuck := [] }) s

/-- Rows that a copy has begun: some of them has landed, or is on its way. -/
def State.begunRows (s : State) (c : Copy) : List Nat :=
  (c.landed.map (·.1) ++ s.fabric.sent.filterMap fun r => match r.cont with
    | .copy id row _ _ => if id == c.id then some row else none
    | _ => none).dedup

/-- A copy cut to some of its rows, which contributes and posts nothing more (R345 step 4). -/
def Copy.onlyRows (c : Copy) (rows : List Nat) : Copy :=
  { c with rows := some (rows.map c.row), landed := c.landed.map fun l => (rows.idxOf l.1, l.2), total := rows.length * c.p.e0,
           p := { c.p with tk := false, cm := false } }

/-- A copy that meets no page and no fault moves, or waits for units alone. -/
def Copy.moves (c : Copy) : Bool :=
  match c.held with
  | .no => true
  | .units _ _ => true
  | _ => false

/-- A copy goes on in a drain: it moves, or a page-in in flight will free it (R345 step 4); one without a frame is not in flight (R349). -/
def State.goesOn (s : State) (c : Copy) : Bool :=
  c.moves || match c.held with
    | .page _ => s.pageins.any fun g => g.frame.isSome && g.waiters.contains c.id
    | _ => false

/-- A copy that the drain's step 4 stops counts in COPIES: one to memory, or one that waits for a frame (R347, R349). -/
def State.countsStopped (s : State) (c : Copy) : Bool :=
  c.p.dk != 3 || s.pageins.any fun g => g.frame.isNone && g.waiters.contains c.id

/-- What of a copy a drain lets land: the rows it has begun, where they are not complete (R345 steps 3 and 4). -/
def State.begun (s : State) (c : Copy) : Option Copy :=
  let k := c.onlyRows (s.begunRows c)
  if c.p.dk != 3 && s.goesOn c && decide (k.got < k.total) then some k else none

/-- The answers that pieces of cut copies wait for name the rows that are left. -/
def State.renumber (s : State) (old : List Copy) : State :=
  { s with fabric := { s.fabric with sent := s.fabric.sent.map fun r => match r.cont with
      | .copy id row skip len => match old.find? (·.id == id) with
        | some c => { r with cont := .copy id ((s.begunRows c).idxOf row) skip len }
        | none => r
      | _ => r } }

/-- Page-ins of a partition that have no frame and on which no copy waits any more end (R345 step 4). -/
def State.endPageIns (s : State) (p : Nat) : State :=
  let live := fun id : Word => s.copies.any (·.id == id)
  { s with pageins := s.pageins.filter fun g => g.part != p || g.frame.isSome || g.waiters.any live }

/-- What is on its way goes on: the pieces of copies and the started pushes of some cores. -/
def State.kickGoing (s : State) (cs : List Nat) : State :=
  let s := s.copies.foldl (fun (t : State) c =>
    if cs.contains c.cid && c.held == .no then t.later (.copyPieceLand c.id.toNat 0 0 0) else t) s
  if s.pushes.any fun p => cs.contains p.cid && p.started then s.later (.skinkWriteLand 0) else s

/-- The queues of a partition in a quadrant: linked or slotted, with the place in their list (R311). -/
def State.queuesOf (s : State) (q p : Nat) : List (Nat × Nat) :=
  let linked := (List.range 8).flatMap fun r => ((s.runList q r).1).zipIdx
  let slotted := ((s.quad q).slots.map fun e => (e.qsb, 0)).filter fun e => linked.all (·.1 != e.1)
  (linked ++ slotted).filter fun e => bits (s.qword q e.1 8) 50 47 == p

/-- The walker's own registration of a queue's WAIT ends (R345, R328). -/
def State.endWait (s : State) (q qsb : Nat) : State :=
  match s.slotOf q qsb with
  | some e =>
    let others := (s.quad q).slots.any fun k => k.qsb != qsb && bits k.qctl.toNat 56 54 == 2 && tokenGran k.ftoken == tokenGran e.ftoken
    if bits e.qctl.toNat 56 54 = 2 ∧ !others then
      { s with waiters := s.waiters.filter fun w => !(w.who == .launch q && w.gran == tokenGran e.ftoken) }
    else s
  | none => s

/-- Step 6 of R345 for one queue, and whether it was set to HALT: it is written back with RUNG and SLOT 0 and its fault bit
set; FTOKEN is 0 outside XFAULT and WAITING (R310). -/
def State.drainQueue (s : State) (q qsb : Nat) : State × Bool :=
  let rung := bits (s.qword q qsb 0x40) 15 0
  if (s.slotOf q qsb).isNone && rung == 0 && (s.running q qsb).isEmpty then (s, false)
  else
    let st := s.queueState q qsb
    let halt := st == 1 || st == 2
    let s := s.endWait q qsb
    let s := if halt then s.onSlot q qsb fun e => { e with ftoken := 0 } else s
    let s := s.writeBack q qsb (if halt then 5 else st)
    let s := s.fwPut q (qsb + 0x40) 8 0
    (s.bitmap q (s.qidx q qsb) true true, halt)

/-- Step 6 of R345 for a partition, and HALTQ (R347). -/
def State.drainQueues (s : State) (p : Nat) : State × Nat :=
  [0, 1, 2, 3].foldl (fun (a : State × Nat) q =>
    (a.1.queuesOf q p).foldl (fun (a : State × Nat) e =>
      let r := a.1.drainQueue q e.1
      (r.1, a.2 + flag r.2)) a) (s, 0)

/-- The places of a scratchpad on which an agent waits. -/
def State.waitedOn (s : State) (cs : List Nat) : List Loc :=
  ((s.waiters.map (·.loc)).filter fun l => match l with | .spad c _ => cs.contains c | _ => false).dedup

/-- Step 7 of R345: scratchpads become zero with every word full, rings are emptied, holds end; waiters on their sync words
are woken (R346). -/
def State.scrub (s : State) (cs : List Nat) : State :=
  let s := cs.foldl (fun (t : State) c => t.onCore c fun k =>
    { k with spad := Mem.fresh }) (s.freeCores cs)
  let s := cs.foldl State.releaseHolds s
  ((s.waitedOn cs).foldl State.wake s).settleAll

/-- The counts behind SEQ restart for every pair with a reset core (R400). -/
def State.restartSeq (s : State) (cs : List Nat) : State :=
  { s with fabric := { s.fabric with msgSeq := s.fabric.msgSeq.filter fun e => !(cs.contains e.1.1 || cs.contains e.1.2) } }

/-- Harts of the cores at supervisor level (R347). -/
def State.supHarts (s : State) (cs : List Nat) : Nat :=
  ((s.focus, s.hart) :: s.harts).countP fun h => agentOf cs h.1 && h.2.level == .supervisor

/-- The eight words of the fault record (R347). -/
def faultRecord (p reason gangs coros copies cores sup haltq : Nat) : List Nat :=
  [2 ^ 56 + p % 16 * 2 ^ 52 + reason % 65536, gangs, coros, copies, cores, sup, haltq, 0]

/-- Messages of the cores that were refused and will not come again let later ones enter (R92, R345). -/
def State.forgetRefused (s : State) (cs : List Nat) : State :=
  (s.cores.map (·.1)).foldl (fun (t : State) c => t.onCore c fun k =>
    { k with refused := k.refused.filter fun r => !(r.1 == s.fabric.eid && cs.contains r.2.1) }) s

/-- STEPS 1 TO 5 of R345 begin: the harts stop, what their coroutines left is discarded, and of the copies and the pushes only the
rows and writes that have begun go on; the numbers of the fault record are taken (R347). -/
def State.drainBegin (s : State) (p : Nat) : State :=
  let cs := s.coresOf p
  let mine := s.copies.filter fun c => cs.contains c.cid
  let counts := [s.gangs.countP (·.part == p), (cs.map fun c => (s.core c).coros.length).sum, mine.countP s.countsStopped, s.supHarts cs]
  let g : Going := { copies := mine.filterMap s.begun, pushes := s.pushes.filter fun k => k.part == p && k.started }
  let s := (s.setPartState p 2).setHalt p true
  let s := ((cs.foldl State.resetHarts (s.dropCores cs g)).renumber mine).forgetRefused cs
  let s : State := { s with
    copies := s.copies.filterMap fun c => if cs.contains c.cid then g.copies.find? (·.id == c.id) else some c
    pushes := s.pushes.filter fun k => k.part != p || k.started
    gangs := s.gangs.map fun k => if k.part = p then { k with ending := false } else k
    commands := s.commands.map fun c => if c.part = p ∧ c.cmd = 2 then { c with counts := counts } else c }
  ((s.freeCores cs).endPageIns p).kickGoing cs

/-- Copies that can go no further, and pushes that their targets hold, are given up (R345 steps 4 and 5). -/
def State.drainDrop (s : State) (p : Nat) (cs : List Nat) : State :=
  let t : State := { s with copies := s.copies.filter fun c => !cs.contains c.cid || s.goesOn c
                            pushes := s.pushes.filter fun k => k.part != p || k.started }
  t.endPageIns p

/-- STEPS 6 TO 10 of R345. -/
def State.drainEnd (s : State) (p : Nat) (counts : List Nat) : State :=
  let cs := s.coresOf p
  let s := s.dropCores cs Going.none
  let s : State := { s with grids := s.grids.filter (·.part != p) }
  let (s, haltq) := s.drainQueues p
  let s : State := { s with gangs := s.gangs.filter (·.part != p) }
  let s := (cs.foldl State.resetCore (s.scrub cs)).restartSeq cs
  let n := fun i => counts.getD i 0
  let ws := faultRecord p (bits (s.dev8 (pcaWord p 0)) 15 0) (n 0) (n 1) (n 2) cs.length (n 3) haltq
  let s := (ws.zipIdx).foldl (fun (t : State) w => t.fwPut 0 (s.dev8 (pcaWord p 5) + 8 * w.2) 8 w.1) s
  (s.setPartState p 3).commandDone p

/-- A request that partition p had on the fabric to this device itself is not served yet (R345 step 3). -/
def State.loopsBack (s : State) (p : Nat) : Bool :=
  s.agenda.any fun t => match t with
    | .event (.remoteRequest r) => r.sep == s.fabric.eid && r.spart == p
    | _ => false

/-- What a drain of partition p waits for before step 6 (R345): rows, writes, requests and page-ins in flight. -/
def State.drainWaits (s : State) (p : Nat) : Bool :=
  (s.copies.any fun c => (s.coresOf p).contains c.cid) || s.pushes.any (·.part == p) || s.loopsBack p
  || s.pageins.any fun g => g.part == p && g.frame.isSome

/-- DRAIN (R345): steps 1 to 10 in order; a core lease that moves work of the partition, or a freeze of it, comes first (R344, R368).
What has begun comes to its end before step 6. -/
def execDrain (p : Nat) (s : State) : Host.Outcome State Fault Refusal :=
  match s.commands.find? fun c => c.part == p && c.cmd == 2 with
  | none => .next s
  | some c =>
    let cs := s.coresOf p
    if c.counts.isEmpty then
      if s.leaseMoving p || s.freezes p then .next (s.retry (.drain p))
      else if s.partState p ≠ 1 then .next (({ s with commands := s.commands.filter (·.part != p) } : State).endCommand p true)
      else .next ((s.drainBegin p).later (.drain p))
    else
      let t := s.drainDrop p cs
      if t.drainWaits p then .next ((t.kickGoing cs).retry (.drain p)) else .next (s.sourced (.drain p) (t.drainEnd p c.counts))

/-! ### The pre-emption of whole cores (R33, R305, R328, R367) -/

/-- What a hart came to when a freeze or a lease asks for its coroutine. -/
inductive Asked where
  | clear (s : State)
  | busy (s : State)

/-- Cycles from PP to the ERET that a supervisor hart may take (R305). -/
def ppLimit : Nat := 2 ^ 20

/-- A hart's coroutine is pre-empted at its boundary, by forced rollback where none came within 4,096 cycles, or the request stands
at it (R33, R241, R305). A hart that a freeze finds at supervisor level past the limit of R305 is stopped, and its core is free of it
(R328). -/
def State.askHart (s : State) (cid h : Nat) (freeze : Bool) : Asked :=
  let t := s.focusOn (.hart cid h)
  let held := match t.hart.occ with
    | some (g, n) => t.onCoro cid g n fun k => { k with hold := true }
    | none => t
  if t.hart.level = .user then
    if t.hart.occ.isNone then .clear s
    else if t.atBoundary then .clear held.takePre
    else if t.canRollBack ∧ (t.hart.run = .ring ∨ t.hart.asked ≥ 4096) then .clear (held.onFocus Hart.restart).takePre
    else .busy (held.onFocus fun h => { h with preemptReq := true })
  else if t.hart.occ.isNone && (t.hart.run == .wfm || t.hart.run == .stopped) then .clear s
  else if freeze && decide (t.hart.pped ≥ ppLimit) then
    .clear (t.onFocus fun h => { h.vacate with sstatus := setBit (setBit h.sstatus inTrapBit false) ppBit false })
  else .busy (held.onFocus fun h => { h with preemptReq := h.occ.isSome, sstatus := setBit h.sstatus ppBit true })

/-- Every coroutine of a core is asked for; those that do not run are pre-empted at once. The flag says that none runs any
more. -/
def State.askCore (s : State) (cid : Nat) (freeze : Bool) : State × Bool :=
  let r := (List.range 8).foldl (fun (a : State × Bool) h => match a.1.askHart cid h freeze with
    | .clear t => (t, a.2)
    | .busy t => (t, false)) (s, true)
  let rest := (r.1.core cid).coros.filter fun k => !k.pre && !k.running
  (rest.foldl (fun (t : State) k => (t.setPre cid k.gid k.coid).onCoro cid k.gid k.coid fun k => { k with hold := true }) r.1, r.2)

/-- Coroutines that a freeze or a lease held come back (R307, R330, R367). -/
def State.unhold (s : State) (cid : Nat) : State :=
  ((s.core cid).coros.filter (·.hold)).foldl (fun (t : State) k =>
    (t.onCoro cid k.gid k.coid fun k => { k with hold := false }).restoreCoro cid k.gid k.coid) s

/-- The coroutines that came to a core take their home harts there, one after another (R25; log entry 73). -/
def Core.rehome (c : Core) : Core :=
  c.coros.foldl (fun k x => { k with coros := k.coros ++ [{ x with home := k.home }] }) { c with coros := [] }

/-- A core's combining-buffer lines, remote stores and messages have been sent and acknowledged, and no other answer is awaited for
it but that of a held full/empty operation (R118, R121). -/
def State.quiet (s : State) (cid : Nat) : Bool :=
  (s.core cid).comb.isEmpty && (s.core cid).outq.isEmpty && s.fabric.kept.all (·.cid != cid)
  && !s.fabric.sent.any fun r => r.cid == cid && match r.cont with | .feCoro .. => false | _ => true

/-- A core's combining buffer is sent (R113). -/
def State.sendAll (s : State) (cid : Nat) : State :=
  let t := s.sendLines cid fun _ => true
  if (t.core cid).outq.isEmpty then t else t.later (.remoteStoreSend cid)

/-! ### FREEZE (R328, R329) -/

/-- An event to the firmware core of every quadrant. -/
def State.postAll (s : State) (e : FwEvent) : State := [0, 1, 2, 3].foldl (fun (t : State) q => t.postEvent q e) s

/-- The partitions of a mask. -/
def maskParts (mask : Nat) : List Nat := (List.range 16).filter (bit mask)

/-- The mask of some partitions. -/
def partsMask (ps : List Nat) : Nat := (ps.map fun p => 2 ^ p).sum

/-- A queue is set to FROZEN and written back; what it held stays in its words (R328 step 1). -/
def State.freezeQueue (s : State) (q : Nat) (e : Nat × Nat) : State × FrozenQueue :=
  let st := s.queueState q e.1
  let s := (s.endWait q e.1).writeBack q e.1 6
  (s, { quad := q, qsb := e.1, pos := e.2, state := st, words := [] })

/-- Step 1 of R328 for some partitions. -/
def State.freezeQueues (s : State) (ps : List Nat) : State × List FrozenQueue :=
  [0, 1, 2, 3].foldl (fun (a : State × List FrozenQueue) q =>
    (ps.flatMap (a.1.queuesOf q)).foldl (fun (a : State × List FrozenQueue) e =>
      let r := a.1.freezeQueue q e
      (r.1, a.2 ++ [r.2])) a) (s, [])

/-- Device memory as its addresses show it: each retired frame with the contents of its replacement (R370). -/
def State.seenMem (s : State) : Mem :=
  s.molt.remap.foldl (fun m e => m.copyFrame (frameHome s.molt.remap s.molt.remap.length e.1) e.1) s.mem

/-- Byte ranges of device memory that a table of a walk reaches: its own entries, the tables and the pages below it. Only
listed memory and the firmware roots' tables can hold a valid entry. -/
def State.reach (s : State) : List (Nat × Nat × Nat) → Nat → List (Nat × Nat)
  | [], _ => []
  | (level, _, width) :: r, table =>
    let cells := s.seenMem.cells.filter fun c => decide (table ≤ c.1 ∧ c.1 < table + 8 * 2 ^ width)
    let boot := (List.range (2 ^ width)).filter fun i =>
      decide (Config.firmwareRoot 0 ≤ table + 8 * i ∧ table + 8 * i < Config.firmwareRoot 0 + 0x5100)
    let idx := (cells.map (fun c => (c.1 - table) / 8) ++ boot).dedup
    (table, 8 * 2 ^ width) :: idx.flatMap fun i =>
      let e := s.dev8 (table + 8 * i)
      if s.poisonAt (.dev (table + 8 * i)) || !bit e 63 || !s.entryOk level e then []
      else if bits e 57 56 = 0 then s.reach r (pteAddr e)
      else if bit e 62 then []
      else [(pteAddr e, 2 ^ pageBits level)]

/-- A byte or word lies in one of the ranges. -/
def inRanges (rs : List (Nat × Nat)) (a : Nat) : Bool := rs.any fun r => decide (r.1 ≤ a ∧ a < r.1 + r.2)

/-- The part of a memory in some ranges, or outside them. -/
def Mem.restrict (m : Mem) (rs : List (Nat × Nat)) (within : Bool) : Mem :=
  { cells := m.cells.filter fun c => inRanges rs c.1 == within
    empty := m.empty.filter fun w => inRanges rs (8 * w) == within
    poison := m.poison.filter fun w => inRanges rs (8 * w) == within }

/-- The rest of the first row of a copy that has begun and is not complete: the row, the bytes skipped, the bytes. -/
def Copy.openRow (c : Copy) : Option (Nat × Nat × Nat) :=
  ((c.landed.map (·.1)).dedup).findSome? fun r => match c.pieceFrom (r * c.p.e0) c.p.e0 with
    | some (r', skip, len) => if r' = r then some (r, skip, len) else none
    | none => none

/-- A copy has stopped for a freeze (R308): its begun rows are complete, or it is held on a page or a fault. -/
def Copy.stopped (c : Copy) : Bool := !c.moves || (c.openRow.isNone && !(c.sup && c.p.dk == 3))

/-- A freeze may write its image (R328 steps 2 and 3): every coroutine is pre-empted, stores are acknowledged, begun rows
and started pushes are done; one held on a page or a fault is not waited for. -/
def State.frozenStill (s : State) (cs : List Nat) : Bool :=
  cs.all s.quiet
  && (s.copies.all fun c => !cs.contains c.cid || c.stopped)
  && s.pushes.all fun p => !cs.contains p.cid || !p.started || match p.held with | .walk _ | .page _ => true | _ => false

/-- The moves a freeze waits for (R308, R328 steps 2 and 3). -/
def State.freezeMoves (s : State) (cs : List Nat) : State :=
  let s := cs.foldl State.sendAll s
  let s := s.copies.foldl (fun (t : State) c => match if cs.contains c.cid && c.held == .no then c.openRow else none with
    | some (r, skip, len) => t.later (.copyPieceLand c.id.toNat r skip len)
    | none => t) s
  if s.pushes.any fun p => cs.contains p.cid && p.started then s.later (.skinkWriteLand 0) else s

/-- A signature pair, ECDSA and LMS (R372, R393): the leaf index of the LMS signature is used up before it leaves. When the leaves of all
64 trees are used, the LMS signature is zero and the alert is raised (R395). -/
def State.sign (s : State) : State × Nat × Nat :=
  let n := s.eft.signed
  let s : State := { s with eft := { s.eft with signed := n + 1 } }
  if s.eft.leaves < Config.lmsTrees * Config.treeLeaves then
    ({ s with eft := { s.eft with leaves := s.eft.leaves + 1 } }, Config.freeEcdsa n, Config.freeLms s.eft.leaves)
  else (s.alert .lmsExhausted, Config.freeEcdsa n, 0)

/-- The sixteen words of a copy's parameter block (R246). -/
def Copy.paramWords (c : Copy) : List Nat :=
  let p := c.p
  let ep := if c.rows.isSome then p.ep else 0
  [2 ^ 56 + p.dm1 % 4 * 2 ^ 54 + p.sk % 8 * 2 ^ 51 + p.dk % 8 * 2 ^ 48 + flag p.tk * 2 ^ 47 + flag p.cm * 2 ^ 46 + flag p.tier * 2 ^ 45
      + p.esz % 4 * 2 ^ 42 + p.vd % 64 * 2 ^ 36 + p.mtype % 256 * 2 ^ 24,
    p.src.toNat, p.dst.toNat, p.e2 % 2 ^ 16 * 2 ^ 48 + p.e1 % 2 ^ 16 * 2 ^ 32 + p.e0 % 2 ^ 32, p.ss1.toNat, p.ss2.toNat, p.ds1.toNat,
    p.ds2.toNat, p.token.toNat, p.user.toNat, ep, 0, 0, 0, 0, 0]

/-- Rows of a copy that have not landed as a whole, in order of issue: a row on which the copy is held begins again (R308). -/
def Copy.rowsLeft (c : Copy) : List Nat :=
  (List.range c.rowCount).filter fun k => decide (((c.landed.filter (·.1 == k)).map (·.2.2)).sum < c.p.e0)

/-- THE COPY-STATE RECORD of a copy (R308). -/
def Copy.stateRecord (c : Copy) : List Nat :=
  let gs := c.rows.isSome
  c.paramWords
  ++ [c.id.toNat, c.gid % 2 ^ 16 * 2 ^ 32 + c.coid % 2 ^ 32, c.paid, if gs then c.rowsLeft.length else c.rowsLeft.head?.getD c.rowCount,
      flag gs * 2 ^ 63 + flag (!c.moves) * 2 ^ 62] ++ List.replicate 11 0
  ++ if gs then c.rowsLeft.flatMap fun k => [(c.row k).1.toNat, (c.row k).2.toNat] else []

/-- The next multiple of 64. -/
def align64 (n : Nat) : Nat := (n + 63) / 64 * 64

/-- The bytes of each section of a partition's image, by type (R329): QSBs of 256 bytes, context records with their CIDs, copy-state
records, and two roots; the spec gives the other sections no layout (log entry 74). -/
def State.sectionBytes (s : State) (p : Nat) (queues : Nat) (cs : List Nat) (copies : List Copy) (type : Nat) : Nat :=
  match type with
  | 1 => 256 * queues
  | 3 => (cs.map fun c => (((s.core c).coros).map fun k => 8 + k.recordBytes k.kc).sum).sum
  | 5 => (copies.map fun c => align64 (8 * c.stateRecord.length)).sum
  | 7 => 16
  | _ => Config.freeSection s.tick p type

/-- The section directory of a partition's image (R329): type, bytes and offset of each of the eight sections, one behind another on
64-byte boundaries after the directory, and where the last one ends. -/
def directoryOf (bytes : Nat → Nat) : List (Nat × Nat × Nat) × Nat :=
  (List.range 8).foldl (fun (a : List (Nat × Nat × Nat) × Nat) i =>
    (a.1 ++ [(i + 1, bytes (i + 1), a.2)], align64 (a.2 + bytes (i + 1)))) ([], align64 (0x1C0 + 16 * 8))

/-- The fields of the header of a partition's image, as offset, bytes and value: FMT, PART, EID and section count, the image's length,
the CID set, LPART.KC of each core, and the section directory (R329). -/
def headerOf (eid p : Nat) (cids : List (Nat × Nat × Nat)) (bytes : Nat → Nat) : List (Nat × Nat × Nat) :=
  let mine := (cids.filter (·.1 == p)).map (·.2)
  let d := directoryOf bytes
  [(0, 8, 2 ^ 56 + p % 16 * 2 ^ 52 + eid % 2 ^ 13 * 2 ^ 32 + 8), (8, 8, d.2), (0x10, 136, (mine.map fun c => 2 ^ c.1).sum),
   (0x98, 272, (mine.map fun c => c.2 * 4 ^ c.1).sum), (0x1A8, 24, 0)]
  ++ (d.1.zipIdx).flatMap fun e => [(0x1C0 + 16 * e.2, 8, e.1.2.1 * 256 + e.1.1), (0x1C8 + 16 * e.2, 8, e.1.2.2)]

/-- The identity of this device (R388, R393). -/
def ownIdentity : Identity :=
  { chain := Config.freeChain, key := Config.identityKey, ecdsa := Config.identityEcdsa, lms := Config.identityLms }

/-- The public key of the LMS tree of a leaf and the certificate that the identity key gives it (R395); zero where no leaf is left. -/
def treeOf (leaf : Option Nat) : Nat × Nat :=
  match leaf with
  | some l => (Config.treeKey (l / Config.treeLeaves), Config.treeCertificate (l / Config.treeLeaves))
  | none => (0, 0)

/-- The leaf that the next LMS signature uses (R395). -/
def State.nextLeaf (s : State) : Option Nat :=
  if s.eft.leaves < Config.lmsTrees * Config.treeLeaves then some s.eft.leaves else none

/-- The bytes of an image: the sum of the lengths in its headers (R329). -/
def Image.length (g : Image) : Nat := (g.headers.map fun h => ((h.2.find? (·.1 == 8)).map (·.2.2)).getD 0).sum

/-- The tags of an image's 64 KiB chunks under a key, with IV = salt, chunk index and zeros (R388). -/
def Image.tags (g : Image) (key salt : Nat) : List Nat :=
  (List.range ((g.length + 65535) / 65536)).map fun i => Config.gcmTag key (salt * 2 ^ 64 + i * 2 ^ 32) (freeChunk g.contents key i)

/-- The bytes that a seal's signatures are over: the header and the tags (R388). -/
def Image.signedBytes (g : Image) (tags : List Nat) : List Byte :=
  (g.headers.flatMap fun h => h.2.flatMap fun f => bytesOf f.2.1 f.2.2) ++ tags.flatMap (bytesOf 16)

/-- THE SEAL of an image (R388): a random key and salt, the tags, the key wrapped under the pod sealing key, the device's identity and the
tree of `leaf`, and the two signatures. -/
def Image.sealed (g : Image) (tick pod : Nat) (leaf : Option Nat) (ecdsa lms : Nat) : Image :=
  let key := Config.freeImageKey tick % 2 ^ 256
  let salt := Config.freeSalt tick % 2 ^ 32
  { g with trailer :=
      { salt := salt, tags := g.tags key salt, imageKey := key, wrapped := Config.freeWrapped pod key, identity := ownIdentity
        lmsKey := (treeOf leaf).1, treeCert := (treeOf leaf).2, ecdsa := ecdsa, lms := lms } }

/-- THE SEAL VERIFIES (R388, R393, R395): the identity carries a pair of signatures that verify under the Stoquel keys of the firmware that
runs, the device's key certifies the LMS tree, both signatures over the header and the tags verify, the image key is wrapped under this
device's pod sealing key, and every chunk has its tag. Which keys sign an identity is DEDUCED (log entry 5). -/
def State.sealHolds (s : State) (g : Image) : Bool :=
  let k := if s.eft.active = 0 then s.eft.slotA else s.eft.slotB
  let t := g.trailer
  Config.ecdsaVerifies k.ecdsaKey (bytesOf 96 t.identity.key) t.identity.ecdsa
  && Config.lmsVerifies k.lmsKey (bytesOf 96 t.identity.key) t.identity.lms
  && Config.ecdsaVerifies t.identity.key (bytesOf 56 t.lmsKey) t.treeCert
  && Config.ecdsaVerifies t.identity.key (g.signedBytes t.tags) t.ecdsa && Config.lmsVerifies t.lmsKey (g.signedBytes t.tags) t.lms
  && s.eft.podKey.any (fun p => t.wrapped == Config.freeWrapped p t.imageKey) && t.tags == g.tags t.imageKey t.salt

/-- A core's spilled contexts are read back, for its records go into an image whole (R58, R329). -/
def State.wholeCore (s : State) (cid : Nat) : Core :=
  { s.core cid with coros := (s.core cid).coros.map (s.loadRecord cid) }

/-- THE IMAGE of some partitions (R329). -/
def State.imageOf (s : State) (ps cs : List Nat) (f : Freezing) : Image :=
  let roots := ps.map fun p => (p, s.rootsOf p)
  let cids := cs.map fun c => (s.partOf c, c, (s.core c).kc)
  let copies := s.copies.filter fun c => cs.contains c.cid
  let ranges := (roots.flatMap fun r => s.reach walkLevels r.2.1 ++ s.reach walkLevels r.2.2).dedup
  { addr := f.image, eid := s.fabric.eid, key := s.eft.podKey, trailer := unsealed
    cids := cids
    roots := roots
    queues := f.queues.map fun q => { q with words := (List.range 32).map fun i => word (s.qword q.quad q.qsb (8 * i)) }
    gangs := s.gangs.filter fun g => ps.contains g.part
    cancelled := f.cancelled
    cores := cs.map fun c => (c, s.wholeCore c)
    copies := copies
    grids := s.grids.filter fun g => ps.contains g.part
    pushes := s.pushes.filter fun p => ps.contains p.part
    feHeld := s.feHeld.filter fun h => s.feOwnerOf cs h.who
    contributions := s.heldContributions.filter fun h => contributorOf cs h.who
    kept := s.fabric.kept.filter fun k => cs.contains k.cid
    waits := s.fabric.waits.filter fun w => s.unitOwnerOf cs w.who
    sent := s.fabric.sent.filter fun r => cs.contains r.cid
    seqs := s.fabric.msgSeq.filter fun e => cs.contains e.1.1 || cs.contains e.1.2
    ranges := ranges
    pages := s.seenMem.restrict ranges true
    headers := ps.map fun p => (p, headerOf s.fabric.eid p cids (s.sectionBytes p
      (f.queues.countP fun q => bits (s.qword q.quad q.qsb 8) 50 47 == p) (s.coresOf p) (copies.filter fun c => s.partOf c.cid == p)))
    records := copies.map fun c => (c.id, c.stateRecord) }

/-- The gangs of harts that stay at supervisor level beyond the limit of R305 on a core (R328 step 2). -/
def State.lateGangs (s : State) (cid : Nat) : List (Nat × Nat) :=
  (List.range 8).filterMap fun h =>
    let k := s.hartOf (.hart cid h)
    if k.level = .user ∨ k.pped < ppLimit then none else k.occ.map fun o => (s.partOf cid, o.1)

/-- A gang is cancelled (R328 step 2): its coroutines and what they left go. -/
def State.cancelGang (s : State) (g : Nat × Nat) : State :=
  let s := (s.coresOf g.1).foldl (fun (t : State) c => t.onCore c fun k => { k with coros := k.coros.filter (·.gid != g.2) }) s
  let s := (s.copies.filter fun c => c.gid == g.2 && s.partOf c.cid == g.1).foldl (fun (t : State) c => t.dropCopy c.id) s
  let s := s.dropPushes fun k => k.gid == g.2 && k.part == g.1
  let s := s.dropUnits fun w => match w.who with | .coro c k _ => k == g.2 && s.partOf c == g.1 | _ => false
  let s : State := { s with grids := s.grids.filter fun k => !(k.gid == g.2 && k.part == g.1) }
  s.onGang g.1 g.2 fun k => { k with cancelled := true }

/-- The image is written and sealed; the cores and their scratchpads are free, the partitions FROZEN (R328 steps 4 and 5). -/
def State.finishFreeze (s : State) (ps cs : List Nat) (f : Freezing) : State :=
  let img := s.imageOf ps cs f
  let leaf := s.nextLeaf
  let (s, ecdsa, lms) := s.sign
  let img := img.sealed s.tick (s.eft.podKey.getD 0) leaf ecdsa lms
  let s : State := { s with images := s.images.filter (·.addr != f.image) ++ [img],
                            freezing := s.freezing.erase f,
                            frozenBy := s.frozenBy.filter (fun e => !ps.contains e.1) ++ ps.map fun p => (p, f.image) }
  let s := (s.dropCores cs Going.none).freeCores cs
  let s : State := { s with
    gangs := s.gangs.filter fun g => !ps.contains g.part
    copies := s.copies.filter fun c => !cs.contains c.cid
    grids := s.grids.filter fun g => !ps.contains g.part
    pushes := s.pushes.filter fun p => !ps.contains p.part }
  let s := ps.foldl (fun (t : State) p => (t.endPageIns p).setPartState p 4) s
  s.postAll { code := 9, arg := partsMask ps, arg2 := flag (!f.cancelled.isEmpty) }

/-- A management request that arrives over the fabric before boot complete receives a NACK (R391). -/
def State.managementNack (s : State) : State := { s with fabric := { s.fabric with out := s.fabric.out ++ [.managementNack] } }

/-- FREEZE (R328): the partitions of the mask that are ACTIVE stop, are pre-empted, and go into one sealed image. A command
or a lease in progress on one of them comes first (R344, R368), and the freeze waits for what has to come to an end. Before boot
complete it receives a NACK (R391). DESIGN CHOICE (log entry 84): step 4 waits for a pod sealing key where the Eft holds none. -/
def execFreeze (mask image : Nat) (s : State) : Host.Outcome State Fault Refusal :=
  if !s.eft.booted then .next s.managementNack
  else
    match s.freezing.find? fun f => f.image == image with
    | none =>
      if (maskParts mask).any fun p => s.partState p == 2 || s.leaseMoving p || s.commands.any (·.part == p) then
        .next (s.retry (.freeze mask image))
      else
        let ps := (maskParts mask).filter fun p => s.partState p == 1
        if ps.isEmpty then .next s
        else
          let t := s
          let s := s.postAll { code := 8, arg := partsMask ps, arg2 := 0 }
          let r := s.freezeQueues ps
          let f : Freezing := { mask := partsMask ps, image := image, queues := r.2, cancelled := [] }
          .next (t.sourced (.freeze mask image) (({ r.1 with freezing := r.1.freezing ++ [f] } : State).later (.freeze mask image)))
    | some f =>
      let ps := maskParts f.mask
      let cs := ps.flatMap s.coresOf
      let lost := cs.flatMap s.lateGangs
      let r := cs.foldl (fun (a : State × Bool) c =>
        let b := a.1.askCore c true
        (b.1, a.2 && b.2)) (s, true)
      let t := lost.foldl State.cancelGang r.1
      let f2 := { f with cancelled := f.cancelled ++ lost }
      let t : State := { t with freezing := t.freezing.map fun k => if k == f then f2 else k }
      if r.2 && t.frozenStill cs && t.eft.podKey.isSome then .next (s.sourced (.freeze mask image) (t.finishFreeze ps cs f2))
      else .next ((t.freezeMoves cs).retry (.freeze mask image))

/-! ### THAW (R330) -/

/-- A partition may take its part of an image (R330, R344). -/
def State.thawFits (s : State) (img : Image) (p : Nat) : Bool :=
  let mine := (img.cids.filter fun c => c.1 == p).map (·.2)
  s.coresOf p == mine.map (·.1)
  && (mine.all fun c => (s.core c.1).kc == c.2)
  && ((s.partState p == 4 && s.frozenBy.contains (p, img.addr)) || s.partState p == 0)

/-- A core takes its records, allocations and rings from an image; its coroutines take new home harts (R25), and their records enter the
context cache as room allows (R29). -/
def Core.thawed (now c : Core) : Core :=
  Core.rehome { now with
    spad := c.spad, coros := c.coros.map fun k => { k with away := true }, inbox := c.inbox, inboxW := c.inboxW, inboxSeen := c.inboxSeen, inboxUnits := c.inboxUnits,
    inboxOff := c.inboxOff, ovf := c.ovf, ovfW := c.ovfW, ovfbase := c.ovfbase, ovfSize := c.ovfSize,
    ovfQuota := c.ovfQuota, generated := c.generated, holds := c.holds, refused := c.refused, asyncs := c.asyncs, asyncsWaiting := c.asyncsWaiting,
    xfers := c.xfers }

/-- A queue is linked again at its saved place (R330 step 3). -/
def State.relink (s : State) (e : FrozenQueue) : State :=
  let pri := bits ((e.words.getD 1 0).toNat) 53 51
  let l := (s.runList e.quad pri).1
  if l.contains e.qsb then s
  else
    match if e.pos = 0 then none else l[min e.pos l.length - 1]? with
    | none =>
      let old := if h : pri < 8 then (s.quad e.quad).rlhead[pri].toNat else 0
      (s.fwPut e.quad e.qsb 8 old).onQuad e.quad fun k => if h : pri < 8 then { k with rlhead := k.rlhead.set pri (word e.qsb) } else k
    | some before =>
      let next := s.qword e.quad before 0
      (s.fwPut e.quad e.qsb 8 next).fwPut e.quad before 8 e.qsb

/-- A queue of an image comes back with its STATE (R330): one that ran or waited takes a slot where one is free, a WAIT
registers again, a queue in XFAULT reports again, and one that needs service shows its fault bit (R309). -/
def State.thawQueue (s : State) (e : FrozenQueue) : State :=
  let q := e.quad
  let linked := ((List.range 8).flatMap fun r => (s.runList q r).1).contains e.qsb
  let next := s.qword q e.qsb 0
  let s := (e.words.zipIdx).foldl (fun (t : State) w => t.fwPut q (e.qsb + 8 * w.2) 8 w.1.toNat) s
  let s := s.fwPut q (e.qsb + 8) 8 (withState (s.qword q e.qsb 8) (if e.state = 2 then 1 else e.state))
  let s := if linked then s.fwPut q e.qsb 8 next else s.relink e
  let ftoken := e.words.getD 10 0
  let s := if 3 ≤ e.state ∧ e.state ≤ 5 then s.bitmap q (s.qidx q e.qsb) true true else s
  if e.state = 3 then s.postEvent q { code := 2, arg := e.qsb, arg2 := (e.words.getD 11 0).toNat }
  else if e.state = 1 ∨ e.state = 2 then
    match s.takeSlot q e.qsb with
    | none => s
    | some s =>
      if e.state = 1 then s
      else
        match s.startWait q e.qsb (bits (s.qword q e.qsb 8) 50 47) (s.rdidx q e.qsb) ftoken with
        | .started t => t
        | .blocked t => t
  else s

/-- The pages in use take their contents of the image (R330 step 1). -/
def Mem.restore (m : Mem) (rs : List (Nat × Nat)) (pages : Mem) : Mem :=
  let out := m.restrict rs false
  { cells := pages.cells.foldl (fun l c => cellInsert l c.1 c.2) out.cells
    empty := pages.empty.foldl sortedInsert out.empty
    poison := pages.poison.foldl sortedInsert out.poison }

/-- The pages of an image are restored, those of a retired frame in its replacement (R330, R370). -/
def State.restorePages (s : State) (img : Image) : Mem :=
  (s.molt.remap.filter fun e => inRanges img.ranges e.1).foldl (fun m e => m.copyFrame e.1 (frameHome s.molt.remap s.molt.remap.length e.1))
    (s.mem.restore img.ranges img.pages)

/-- The memories of an image are in canonical form. -/
def Image.canonical (g : Image) : Bool := g.pages.wf resetByte && g.cores.all fun c => c.2.spad.wf zeroByte

/-- An image is restored (R330): pages, roots, allocations, grids, contexts and engines come back, queues are linked again, and THAWED is
raised. -/
def State.thawImage (s : State) (img : Image) : State :=
  let ps := img.roots.map (·.1)
  let s : State := { s with mem := s.restorePages img }
  let s := img.roots.foldl (fun (t : State) r => if h : r.1 < 16 then { t with roots := t.roots.set r.1 r.2 } else t) s
  let live := fun (gid part : Nat) => !img.cancelled.contains (part, gid)
  let s := img.cores.foldl (fun (t : State) c => t.onCore c.1 fun k => k.thawed c.2) s
  let s : State := { s with
    gangs := s.gangs ++ img.gangs.filter fun g => live g.gid g.part
    grids := s.grids ++ img.grids
    pushes := s.pushes ++ img.pushes.map fun p => { p with held := .no }
    copies := s.copies ++ img.copies.map fun c => { c with held := .no, reported := none }
    feHeld := s.feHeld ++ img.feHeld
    heldContributions := s.heldContributions ++ img.contributions
    frozenBy := s.frozenBy.filter fun e => !ps.contains e.1
    fabric := { s.fabric with
      kept := s.fabric.kept ++ img.kept
      sent := s.fabric.sent ++ img.sent
      waits := s.fabric.waits ++ img.waits.map fun w => { w with got := 0 }
      nextRid := img.pushes.foldl (fun n p => max n (p.sn + 1)) s.fabric.nextRid
      msgSeq := img.seqs.foldl (fun l e => assocSet l e.1 e.2) s.fabric.msgSeq } }
  let s := ps.foldl (fun (t : State) p => t.setPartState p 1) s
  let s := img.cids.foldl (fun (t : State) c => ((t.takeBack c.2.1 (Config.maxCoroutines + 1)).unhold c.2.1).kickInbox c.2.1) s
  let s := img.copies.foldl (fun (t : State) c => t.later (.copyPieceLand c.id.toNat 0 0 0)) s
  let s := if img.pushes.isEmpty then s else s.later (.skinkWriteLand 0)
  let s := img.kept.foldl (fun (t : State) k => t.resendKept k.ep) s
  let s := if img.contributions.isEmpty then s else s.later (.heldContributionRewalk 0)
  let s := (s.gangs.filter (·.ending)).foldl (fun (t : State) g => t.later (.gangExit g.gid)) s
  let s := img.queues.foldl State.thawQueue s
  s.settleAll.postAll { code := 0x0A, arg := partsMask ps, arg2 := 0 }

/-- THAW (R330, R388, R389): the seal, the EID and the shape are checked before anything changes; then the image is restored. `sealOk` says
that the bytes in memory are still those that were sealed: a chunk that has changed fails its tag. -/
def execThaw (image : Nat) (sealOk : Bool) (s : State) : Host.Outcome State Fault Refusal :=
  if !s.eft.booted then .next s.managementNack
  else
    match s.images.find? (·.addr == image) with
    | none => .next s
    | some img =>
      if !sealOk ∨ img.key.isNone ∨ img.key ≠ s.eft.podKey ∨ img.eid ≠ s.fabric.eid ∨ !(img.roots.map (·.1)).all (s.thawFits img) then .next s
      else .next (if s.sealHolds img then s.sourced (.thaw image sealOk) (s.thawImage img) else s)

end Sys2Proof.Machine
end

