-- ==== Sys2Proof/Machine/Molt.lean ====
section
/-! DEFINITION. Silent-error defence: checking points and scores, test leases, row sparing, retirement and its records
(R355 to R373, R395). -/

namespace Sys2Proof.Machine

/-! ### Scores and the health table (R361, R362) -/

/-- Offset of index 0 of a kind in the health table (R362). -/
def healthOffset (kind : Nat) : Nat :=
  match kind with
  | 1 => 0
  | 2 => 0x2400
  | 3 => 0x4C800
  | 4 => 0x4C880
  | 5 => 0x4D280
  | _ => 0x4DA80

/-- Resources of a kind (R362). -/
def healthCount (kind : Nat) : Nat :=
  match kind with
  | 1 => 1152
  | 2 => 38016
  | 3 => 16
  | 4 => 320
  | 5 => 256
  | 6 => 4608
  | _ => 0

/-- The address of a resource's entry (R362). -/
def healthAddr (kind i : Nat) : Nat := Config.healthBase + healthOffset kind + 8 * i

/-- A resource ID (R362). -/
def resourceId (kind i : Nat) : Nat := kind % 16 * 2 ^ 20 + i % 2 ^ 20

/-- The resource exists. -/
def isResource (kind i : Nat) : Bool := decide (i < healthCount kind)

/-- A field of a resource's entry. -/
def State.health (s : State) (kind i hi lo : Nat) : Nat := bits (s.dev8 (healthAddr kind i)) hi lo

/-- SCORE, STATE, LEASES, FAILS and CID of a resource (R362). -/
def State.score (s : State) (kind i : Nat) : Nat := s.health kind i 63 56
def State.inState (s : State) (kind i : Nat) : Nat := s.health kind i 55 52
def State.leaseCount (s : State) (kind i : Nat) : Nat := s.health kind i 47 32
def State.failsOf (s : State) (kind i : Nat) : Nat := s.health kind i 31 24
def State.cidOf (s : State) (i : Nat) : Nat := s.health 1 i 10 0

/-- Write a field of a resource's entry. -/
def State.setHealth (s : State) (kind i hi lo v : Nat) : State := s.setField (healthAddr kind i) hi lo v

/-- A lease of a lane is a lease of its core (R363). -/
def leasedAs (kind i : Nat) : Nat × Nat := if kind = 2 then (1, i / 33) else (kind, i)

/-- A lease of a resource is in progress. -/
def State.moltLease (s : State) (kind i : Nat) : Option MoltLease := s.molt.leases.find? fun l => l.kind == kind && l.index == i

/-- A core whose lease waits for a spare and whose score is pinned (R367). -/
def State.pinnedScore (s : State) (kind i : Nat) : Bool :=
  kind == 1 && match s.cidOf i with
    | c => decide (c < Config.cores) && (s.core c).fullCheck && (s.core c).phys == i

/-- A score rises by `n`, at most to 255; at 128 or more its resource is leased at once, unless a lease is in progress
(R361). A retired resource keeps a score, and execTestLease leases none (R365). -/
def State.blame (s : State) (kind i n : Nat) : State :=
  if !isResource kind i then s
  else
    let v := min 255 (s.score kind i + n)
    let s := s.setHealth kind i 63 56 v
    let r := leasedAs kind i
    if v ≥ 128 ∧ (s.moltLease r.1 r.2).isNone then s.later (.testLease kind i) else s

/-- SCORE_DECAY (R361): a score falls by one, at least to 0; a pinned score stays. -/
def execScoreDecay (kind index : Nat) (s : State) : Host.Outcome State Fault Refusal :=
  if !isResource kind index ∨ s.pinnedScore kind index then .next s
  else .next (s.setHealth kind index 63 56 (s.score kind index - 1))

/-! ### The checking point (R355 to R357, R359, R360) -/

/-- The physical lane of hart-relative lane l of the agent in view, as an index of kind 2 (R355, R362); none for a firmware
core, which has no entry. -/
def State.laneIndex (s : State) (l : Nat) : Option Nat :=
  match s.focus with
  | .hart cid h => some ((s.core cid).phys * 33 + h * (32 / 2 ^ (s.core cid).kc) + l)
  | .fw _ => none

/-- The Chameleon lane of the core of the agent in view. -/
def State.chameleonIndex (s : State) : Option Nat :=
  match s.focus with
  | .hart cid _ => some ((s.core cid).phys * 33 + 32)
  | .fw _ => none

/-- +32 to a lane. -/
def State.blameLane (s : State) (i : Option Nat) : State :=
  match i with
  | some i => s.blame 2 i 32
  | none => s

/-- The charge of one failing comparison (R357). -/
def State.charge (s : State) (lane : Nat) (r : CheckRound) : State :=
  match r with
  | .working => s.blameLane (s.laneIndex lane)
  | .chameleon => s.blameLane s.chameleonIndex
  | .both => (s.blameLane (s.laneIndex lane)).blameLane s.chameleonIndex

/-- The comparisons of a replay that fail and are charged (R357): a round that ends with both lanes agreeing is the last;
three failing comparisons are the final failure. -/
def failedRounds (rounds : List CheckRound) : List CheckRound :=
  match rounds with
  | .both :: .both :: .both :: _ => [.both, .both, .both]
  | .both :: r :: _ => [.both, r]
  | r :: _ => [r]
  | [] => []

/-- The group is written poisoned: the comparison after the second retry fails too (R357). -/
def poisonedCheck (rounds : List CheckRound) : Bool := rounds.length == 3

/-- A word of a group is poisoned: a register word, or the pending store element that holds it (R360). -/
def Hart.poisonWord (h : Hart) (w : RegWord) : Hart :=
  if w.kind = 5 then
    { h with pend := match h.pend[w.word]? with
        | some p => listPut h.pend w.word { p with poisoned := true }
        | none => h.pend }
  else { h with ctx := { h.ctx with poison := if h.ctx.poison.contains w then h.ctx.poison else h.ctx.poison ++ [w] } }

/-- CHECKING_POINT (R232, R356, R357): the oldest checked group of the agent is accepted, with its flags, or written
poisoned, without them; each failing comparison is charged; its read lease ends. -/
def execCheckingPoint (a : Agent) (rounds : List CheckRound) (s : State) : Host.Outcome State Fault Refusal :=
  let t := s.focusOn a
  match t.hart.unchecked with
  | [] => .next s
  | u :: us =>
    let t := (failedRounds rounds).foldl (fun (t : State) r => t.charge u.lane r) t
    if poisonedCheck (failedRounds rounds) then
      let kept := u.base ||| us.foldl (fun n k => n ||| k.flags) 0
      let drop := u.flags &&& (63 - kept % 64)
      .next (t.onFocus fun h =>
        let h := u.group.foldl Hart.poisonWord h
        { h with unchecked := us, ctx := { h.ctx with fcsr := h.ctx.fcsr &&& ~~~(word drop) } })
    else
      .next (t.onFocus fun h => { h with unchecked := us.map fun k => { k with base := k.base ||| u.flags } })

/-! ### Errors of storage (R358) -/

/-- The hart-relative lane of `n` that holds a word of a register file: a vector group goes to the lanes in turn (R14), and two rows of a
tile of 64 columns lie on each lane (R229). DESIGN CHOICE (log entry 97): mask words go by fours like those of a vector register, and the
latch lies in rows of 256 bytes, since the spec places neither's words. -/
def wordLane (n : Nat) (w : RegWord) : Nat :=
  match w.kind with
  | 2 => w.word / 64 % n
  | 3 => w.word / 32 % n
  | _ => w.word / 4 % n

/-- The resource that holds a word (R358, R362): the lane of a vector, mask, tile or latch word; the core of a scalar or saved word or
of a scratchpad; for device memory the one that `kind` and `index` name. None of this device for host memory and firmware cores. -/
def State.holderOf (s : State) (e : ErrorAt) (kind index : Nat) : Option (Nat × Nat) :=
  match e with
  | .mem (.dev _) => if 4 ≤ kind ∧ kind ≤ 6 then some (kind, index) else none
  | .mem (.spad cid _) => some (1, (s.core cid).phys)
  | .mem (.host _) => none
  | .reg (.hart cid h) w =>
    let n := 32 / 2 ^ (s.core cid).kc
    if w.kind < 4 then some (2, (s.core cid).phys * 33 + h * n + wordLane n w) else some (1, (s.core cid).phys)
  | .lazy (.hart cid _) _ => some (1, (s.core cid).phys)
  | .reg (.fw _) _ | .lazy (.fw _) _ => none
  | .saved cid _ _ _ => some (1, (s.core cid).phys)

/-- The context with a word poisoned. -/
def Ctx.poisonWord (c : Ctx) (w : RegWord) : Ctx := { c with poison := if c.poison.contains w then c.poison else c.poison ++ [w] }

/-- A word is delivered as poisoned (R358, R360). -/
def State.poisonPlace (s : State) (e : ErrorAt) : State :=
  match e with
  | .mem l => s.putPoison l.word true
  | .reg a w => s.onHart a fun h => { h with ctx := h.ctx.poisonWord w }
  | .lazy a w => s.onHart a fun h => { h with lazy := h.lazy.map (·.poisonWord w) }
  | .saved cid gid coid w => s.onSaved cid gid coid (·.poisonWord w)

/-- A word of the register files that carry check bits: kinds 0 to 4, and x0 is none (R44, R358). -/
def RegWord.isStored (w : RegWord) : Bool := w.kind ≤ 4 && !(w.kind == 4 && w.num == 0)

/-- The word of an error exists: device memory lies below its end, and a context is one that a core keeps. -/
def State.holds (s : State) (e : ErrorAt) : Bool :=
  match e with
  | .mem (.dev a) => decide (a < Config.deviceEnd)
  | .mem (.host _) => false
  | .mem (.spad cid off) => decide (cid < Config.cores ∧ off < 0x100000)
  | .reg (.hart cid h) w => decide (cid < Config.cores ∧ h < (s.core cid).harts) && w.isStored
  | .reg (.fw q) w => decide (q < 4) && w.isStored
  | .lazy a w => (s.hartOf a).lazy.isSome && w.isStored
  | .saved cid gid coid w => match (s.core cid).coro gid coid with
    | some k => k.resident && !k.running && w.isStored
    | none => false

/-- AN ERROR that a read finds (R358): a single one is corrected and written back, +8; an uncorrectable one is read once more, +64; one
that stays is delivered as poisoned. -/
def State.storageError (s : State) (e : ErrorAt) (k : ErrorKind) (kind index : Nat) : State :=
  if !s.holds e then s
  else
    let n := match k with | .corrected => 8 | .reread => 64 | .poisoned => 64
    let s := match s.holderOf e kind index with | some r => s.blame r.1 r.2 n | none => s
    if k = .poisoned then s.poisonPlace e else s

/-! ### The log (R372, R395) -/

/-- A record is appended to the persistent log: SEQ rises by one, and a full ring loses its oldest record (R372, R395). The Eft's
own cycle count has advanced by a free number (log entry 4). -/
def State.logRecord (s : State) (kind resource detail frame : Nat) (k i : Nat) : State :=
  let s : State := { s with eft := { s.eft with cycle := s.eft.cycle + Config.freeCycles s.tick } }
  let (s, ecdsa, lms) := s.sign
  let r : LogRec :=
    { kind := kind, resource := resource, seq := s.eft.nextSeq, cycle := s.eft.cycle, score := s.score k i, fails := s.failsOf k i,
      leases := s.leaseCount k i, detail := detail, frame := frame, eid := s.fabric.eid, ecdsa := ecdsa, lms := lms }
  let l := s.eft.log ++ [r]
  { s with eft := { s.eft with log := l.drop (l.length - Config.logRecords), nextSeq := s.eft.nextSeq + 1 } }

/-- THE 1,728 BYTES of a record (R372). -/
def LogRec.bytes (r : LogRec) : List Byte :=
  [2 ^ 56 + r.kind % 256 * 2 ^ 48 + r.resource % 2 ^ 24, r.seq, r.cycle, r.score % 256 + r.fails % 256 * 2 ^ 8 + r.leases % 65536 * 2 ^ 16,
    r.detail, r.frame, r.eid % 8192].flatMap (bytesOf 8)
  ++ List.replicate 72 0 ++ bytesOf 96 r.ecdsa ++ bytesOf 1452 r.lms ++ List.replicate 52 0

/-! ### Capacity notifications (R371) -/

/-- The payload of a capacity notification (R371). -/
def capacityPayload (kind resource w1 seq w3 : Nat) : List Byte :=
  bytesOf 8 (kind * 2 ^ 56 + resource % 2 ^ 24) ++ bytesOf 8 w1 ++ bytesOf 8 seq ++ bytesOf 8 w3 ++ List.replicate 24 0

/-- One message to gang core 0 of every gang of the device with notifications enabled (R371). -/
def State.notifyAll (s : State) (resource frame seq : Nat) : State :=
  (s.gangs.filter fun g => g.notify).foldl (fun (t : State) g => match g.cores.head? with
    | some c => t.generate c 0xF1 (capacityPayload 2 resource frame seq 0)
    | none => t) s

/-- A gang has coroutines, an allocation or grid blocks on a core (R371). -/
def State.gangUses (s : State) (g : Gang) (cid : Nat) : Bool :=
  ((s.core cid).coros.any (·.gid == g.gid)) || (g.cores.contains cid && g.spad != 0)
  || s.grids.any fun k => k.gid == g.gid && k.part == g.part && k.blocks.any fun b => g.cores[b.j / max 1 k.bpc]? == some cid

/-- Idle spares of a quadrant, lowest first (R362, R367). -/
def State.spares (s : State) (q : Nat) : List Nat :=
  ((List.range Config.physicalPerQuadrant).map (q * Config.physicalPerQuadrant + ·)).filter fun i =>
    s.inState 1 i == 3 && (s.moltLease 1 i).isNone

/-! ### Test leases (R363 to R368) -/

/-- The scope in which one lease of a kind runs at a time (R363). -/
def leaseScope (kind i : Nat) : Nat :=
  match kind with
  | 1 => i / Config.physicalPerQuadrant
  | 4 => i / 80
  | 5 => i / 64
  | 6 => i / 384
  | _ => 0

/-- Another lease of the kind runs in the scope. -/
def State.scopeBusy (s : State) (kind i : Nat) : Bool :=
  s.molt.leases.any fun l => l.kind == kind && leaseScope kind l.index == leaseScope kind i

/-- A lease enters its tests: the entry's STATE is leased (R362, R364). -/
def State.startTests (s : State) (l : MoltLease) : State :=
  let s := s.setHealth l.kind l.index 55 52 1
  { s with molt := { s.molt with leases := (s.molt.leases.filter fun k => !(k.kind == l.kind && k.index == l.index)) ++ [{ l with testing := true }] } }

/-- The core lease finds no idle spare (R367 step 1): SPARE_EXHAUSTED is logged the first time; a lease that the score called
for leaves the core under full checking with its score at 255. -/
def State.noSpare (s : State) (i cid : Nat) : State :=
  let s := if s.molt.exhausted.contains i then s
    else ({ s with molt := { s.molt with exhausted := s.molt.exhausted ++ [i] } } : State).logRecord 10 (resourceId 1 i) (cid % 2048 + 0x7FF * 2 ^ 16) 0 1 i
  if s.score 1 i ≥ 128 then (s.setHealth 1 i 63 56 255).onCore cid fun c => { c with fullCheck := true } else s

/-- Copies of a core with memory destinations have completed, and its writes on their way have landed (R133, R367 step 3); a push that
is held moves with the halo-engine slice. -/
def State.copiesDone (s : State) (cid : Nat) : Bool :=
  (s.copies.all fun c => c.cid != cid || (c.p.dk == 3 && !c.sup)) && s.pushes.all fun p => p.cid != cid || !s.pushSent p

/-- STEPS 3 TO 5 of R367: the CID goes to the spare with what moves, and its coroutines come back; each gang concerned that
asked for it is notified. The coroutines take new home harts (R25). -/
def State.moveCore (s : State) (l : MoltLease) : State :=
  let cid := l.cid
  let s := (s.resetHarts cid).onCore cid fun c =>
    Core.rehome { c.resetKept cid with
      coros := c.coros, refused := c.refused, inbox := c.inbox, inboxW := c.inboxW, inboxSeen := c.inboxSeen, ovf := c.ovf, ovfW := c.ovfW,
      holds := c.holds, generated := c.generated, asyncs := c.asyncs, asyncsWaiting := c.asyncsWaiting, evhart := c.evhart,
      xfers := c.xfers, phys := l.spare, fullCheck := false }
  let s := (s.setHealth 1 l.spare 55 52 0).setHealth 1 l.spare 10 0 cid
  let s := s.setHealth 1 l.index 10 0 0x7FF
  let s : State := { s with molt := { s.molt with exhausted := s.molt.exhausted.filter (· != l.index) } }
  let s := (s.unhold cid).respill cid
  let left := (s.spares (quadOf cid)).length
  let s := (s.gangs.filter fun g => g.notify && s.partOf cid == g.part && s.gangUses g cid).foldl (fun (t : State) _ =>
    t.generate cid 0xF1 (capacityPayload 1 (resourceId 1 l.index) (cid + l.index * 2 ^ 16 + l.spare * 2 ^ 32) 0 left)) s
  s.startTests l

/-- A core lease goes on: every coroutine is pre-empted, stores are acknowledged and copies complete; then the core moves
(R367). -/
def State.withdrawCore (s : State) (l : MoltLease) : State :=
  let r := s.askCore l.cid false
  let s := r.1.sendAll l.cid
  if r.2 && s.quiet l.cid && s.copiesDone l.cid then s.moveCore l
  else
    (s.kickGoing [l.cid]).retry (.testLease 1 l.index)

/-- A lease of a core is called for by its score, or by that of one of its lanes (R361, R363). -/
def State.called (s : State) (i : Nat) : Bool :=
  decide (s.score 1 i ≥ 128) || (List.range 33).any fun l => decide (s.score 2 (33 * i + l) ≥ 128)

/-- The lease of a core (R366, R367): an idle spare is tested at once; a core in service moves its work to a spare first. A
lease never begins on a core of a partition that is DRAINING or FROZEN (R368). -/
def State.leaseCore (s : State) (i : Nat) : State :=
  match s.moltLease 1 i with
  | some l => if l.testing then s else s.withdrawCore l
  | none =>
    let l : MoltLease := { kind := 1, index := i, testing := false, passes := 0, cid := s.cidOf i, spare := 0x7FF }
    if s.scopeBusy 1 i then s.retry (.testLease 1 i)
    else if s.inState 1 i = 3 then s.startTests l
    else if s.inState 1 i ≠ 0 ∨ l.cid ≥ Config.cores then s
    else
      let st := s.partState (s.partOf l.cid)
      if s.partOf l.cid < 16 ∧ (st = 2 ∨ st = 4 ∨ s.freezing.any fun f => bit f.mask (s.partOf l.cid)) then
        if s.called i then s.retry (.testLease 1 i) else s
      else
        match (s.spares (i / Config.physicalPerQuadrant)).head? with
        | none => s.noSpare i l.cid
        | some k =>
          let l := { l with spare := k }
          ({ s with molt := { s.molt with leases := s.molt.leases ++ [l] } } : State).withdrawCore l

/-- The stand-in of a slice: the first in service of its quadrant, by its index xor 1, 2 and 3, then by index (R366). -/
def State.standInOf (s : State) (n : Nat) : Option Nat :=
  ([n ^^^ 1, n ^^^ 2, n ^^^ 3] ++ (List.range 80).map (n / 80 * 80 + ·)).find? fun k => k != n && s.inState 4 k == 0

/-- A slice leaves service (R366): its lines, and those it holds for others, are homed at its stand-in. -/
def State.standDown (s : State) (n : Nat) : State :=
  match s.standInOf n with
  | some k => { s with molt := { s.molt with standIns := s.molt.standIns.filter (·.1 != n) ++ [(n, k)] } }
  | none => s

/-- The withdrawal of a fabric port in RUN (R366, R384): it takes no new packet, and once those in flight are answered its keys are erased.
The flag says that it has left service. -/
def State.withdrawPort (s : State) (i : Nat) : State × Bool :=
  if s.portState i ≠ 2 then (s, true)
  else if s.fabric.sent.any (·.way == .port i) then (s.setPort i { s.port i with leaving := true }, false)
  else ((s.setPortState i 0).setPort i Port.fresh, true)

/-- The resource leaves service (R366). The flag says that the move has taken place. -/
def State.withdrawn (s : State) (kind index : Nat) : State × Bool :=
  match kind with
  | 3 => s.withdrawPort index
  | 4 => (s.standDown index, true)
  | _ => (s, true)

/-- A lease of a resource that is no core goes on: its tests start once it has left service; until then the lease is in progress (R363,
R366). -/
def State.withdraw (s : State) (l : MoltLease) : State :=
  let r := s.withdrawn l.kind l.index
  if r.2 then r.1.startTests l
  else
    let t := if (s.moltLease l.kind l.index).isSome then r.1 else { r.1 with molt := { r.1.molt with leases := r.1.molt.leases ++ [l] } }
    t.retry (.testLease l.kind l.index)

/-- TEST_LEASE (R363, R364, R366): a lease falls due, and the resource is tested once its work has moved. Cache banks are bypassed, and
rows of a pseudo-channel move one by one, with no effect that a program can see. -/
def execTestLease (kind index : Nat) (s : State) : Host.Outcome State Fault Refusal :=
  let r := leasedAs kind index
  if !isResource kind index then .next s
  else if r.1 = 1 then .next (s.leaseCore r.2)
  else match s.moltLease kind index with
    | some l => .next (if l.testing then s else s.withdraw l)
    | none =>
      if s.inState kind index ≠ 0 then .next s
      else if s.scopeBusy kind index then .next (s.retry (.testLease kind index))
      else .next (s.withdraw { kind := kind, index := index, testing := false, passes := 0, cid := 0x7FF, spare := 0x7FF })

/-- A lease ends; cores of the quadrant that waited for a spare are leased again, if a spare is free (R367). -/
def State.endLease (s : State) (l : MoltLease) : State :=
  let s : State := { s with molt := { s.molt with
    leases := s.molt.leases.filter fun k => !(k.kind == l.kind && k.index == l.index) } }
  if l.kind = 1 then
    (s.molt.exhausted.filter fun i => leaseScope 1 i == leaseScope 1 l.index).foldl (fun (t : State) i => t.later (.testLease 1 i)) s
  else s

/-- The resource returns (R364, R366): a core becomes an idle spare, and a slice homes its lines again. -/
def State.returnResource (s : State) (l : MoltLease) : State :=
  let s : State := if l.kind = 4 then { s with molt := { s.molt with standIns := s.molt.standIns.filter (·.1 != l.index) } } else s
  let s := s.setHealth l.kind l.index 63 56 (min (s.score l.kind l.index) 96)
  let s := s.setHealth l.kind l.index 47 32 (s.leaseCount l.kind l.index + 1)
  (s.setHealth l.kind l.index 55 52 (if l.kind = 1 then 3 else 0)).endLease l

/-- The resource is retired (R365, R366, R371, R372): the retirement state, then its record; ports, slices and banks notify
the gangs. -/
def State.retireResource (s : State) (l : MoltLease) : State :=
  let id := resourceId l.kind l.index
  let s := s.setHealth l.kind l.index 55 52 2
  let s : State := { s with eft := { s.eft with retired := s.eft.retired ++ [id] } }
  let seq := s.eft.nextSeq
  let detail := if l.kind = 1 then l.cid % 2048 + l.spare % 2048 * 2 ^ 16 else 0
  let s := s.logRecord l.kind id detail 0 l.kind l.index
  (if l.kind = 1 then s else s.notifyAll id 0 seq).endLease l

/-- The tests of a lease are suspended: its core's partition is DRAINING, FROZEN or on its way there (R368), or a row of the pseudo-channel
has not moved back (R366). -/
def State.suspended (s : State) (l : MoltLease) : Bool :=
  let p := s.partOf l.cid
  (l.kind == 1 && decide (l.cid < Config.cores ∧ p < 16) && (s.partState p == 2 || s.partState p == 4 || s.freezes p))
  || (l.kind == 6 && s.molt.lent.any (·.1 == l.index))

/-- TEST_PASS_END (R364, R365): a passed test returns the resource; a failed one adds 64 to its score and retires it at 224
or more, or at the third. A pseudo-channel is never retired as a whole (R366). -/
def execTestPassEnd (kind index : Nat) (pass : Bool) (s : State) : Host.Outcome State Fault Refusal :=
  match s.moltLease kind index with
  | none => .next s
  | some l =>
    if !l.testing ∨ s.suspended l then .next s
    else if pass then .next (s.returnResource l)
    else
      let v := min 255 (s.score kind index + 64)
      let third := l.passes + 1 ≥ 3
      let s := s.setHealth kind index 31 24 (s.failsOf kind index + 1)
      let s := s.setHealth kind index 63 56 (if third then 255 else v)
      if v ≥ 224 ∨ third then
        if kind = 6 then .next (s.returnResource l) else .next (s.retireResource l)
      else
        .next { s with molt := { s.molt with
          leases := s.molt.leases.map fun k => if k == l then { k with passes := k.passes + 1 } else k } }

/-! ### Row sparing (R369, R370) -/

/-- Free spares of a pseudo-channel, lowest first (R369, R370). -/
def State.freeSpares (s : State) (channel : Nat) : List Nat :=
  (List.range Config.spareRows).filter fun n =>
    !s.molt.badSpares.contains (channel, n) && !(s.molt.usedSpares ++ s.molt.lent).any fun u => u.1 == channel && u.2.2 == n

/-- Take one frame of the retirement pool, at physical addresses (R370, R392); none while the pool is empty or outside
device memory. -/
def State.poolFrame (s : State) : Option Nat × State :=
  let d := s.dev8 0x20
  let f := fun i => s.dev8 (d + 8 * i)
  let n := 2 ^ (f 1 % 32)
  let live := (f 2 + 2 ^ 64 - f 3) % 2 ^ 64
  let entry := fun i => s.dev8 (f 0 + 8 * ((f 3 + i) % n))
  if d = 0 ∨ d + 32 > Config.deviceEnd ∨ f 0 + 8 * n > Config.deviceEnd then (none, s)
  else
    match (List.range (min live n)).find? fun i => frameOk 0 (entry i) with
    | none => (none, s.putNum (.dev (d + 24)) 8 ((f 3 + min live n) % 2 ^ 64))
    | some i => (some (entry i), s.putNum (.dev (d + 24)) 8 ((f 3 + i + 1) % 2 ^ 64))

/-- The frame that holds a row. -/
def rowFrame (channel row : Nat) : Nat := rowAddr channel row / 65536 * 65536

/-- The contents of a frame go to its replacement, and every access follows them (R370 step 4); a row of it that was degraded is copied
poisoned (R369). -/
def State.replaceFrame (s : State) (frame new : Nat) : State :=
  let lost := (List.range 8192).filter fun i => s.degradedAt (.dev (frame + 8 * i))
  let s : State := { s with mem := s.mem.copyFrame frame (frameHome s.molt.remap s.molt.remap.length new),
                            molt := { s.molt with remap := s.molt.remap ++ [(frame, new)] } }
  lost.foldl (fun t i => t.putPoison (.dev (frame + 8 * i)) true) s

/-- A row without a spare (R370 step 4): its frame is replaced from the retirement pool; with the pool empty the row stays
and every read of it is poisoned. -/
def State.retireFrame (s : State) (channel row : Nat) : State :=
  let id := resourceId 6 channel
  let frame := rowFrame channel row
  let r := s.poolFrame
  let seq := r.2.eft.nextSeq
  match r with
  | (some new, s) => ((s.replaceFrame frame new).logRecord 8 id frame new 6 channel).notifyAll id frame seq
  | (none, s) =>
    let s : State := { s with molt := { s.molt with degraded := s.molt.degraded ++ [(channel, row)] } }
    (s.logRecord 9 id frame 0 6 channel).notifyAll id frame seq

/-- The spares tried in turn (R370): each with a verify error is marked bad and recorded; the first good one takes the row. -/
def State.trySpares (s : State) (channel row : Nat) (bad : List Nat) (permanent : Bool) : List Nat → State
  | [] => s.retireFrame channel row
  | n :: r =>
    if bad.contains n then
      let s : State := { s with molt := { s.molt with badSpares := s.molt.badSpares ++ [(channel, n)] } }
      (s.logRecord 7 (resourceId 6 channel) (row % 2 ^ 32 + n * 2 ^ 32) 0 6 channel).trySpares channel row bad permanent r
    else if permanent then
      let s : State := { s with molt := { s.molt with usedSpares := s.molt.usedSpares ++ [(channel, row, n)] } }
      s.logRecord 6 (resourceId 6 channel) (row % 2 ^ 32 + n * 2 ^ 32) 0 6 channel
    else { s with molt := { s.molt with lent := s.molt.lent ++ [(channel, row, n)] } }

/-- A row that stands on a spare while its own is tested (R366): it moves back, or where its own fails it stays on its spare. -/
def State.rowTested (s : State) (u : Nat × Nat × Nat) (permanent : Bool) : State :=
  let s : State := { s with molt := { s.molt with lent := s.molt.lent.erase u } }
  if permanent then
    ({ s with molt := { s.molt with usedSpares := s.molt.usedSpares ++ [u] } } : State).logRecord 6 (resourceId 6 u.1)
      (u.2.1 % 2 ^ 32 + u.2.2 * 2 ^ 32) 0 6 u.1
  else s

/-- A row has a spare for good, its frame is replaced, or it is degraded: it moves no more (R369, R370). -/
def State.rowSettled (s : State) (channel row : Nat) : Bool :=
  s.molt.usedSpares.any (fun u => u.1 == channel && u.2.1 == row) || s.molt.degraded.contains (channel, row)
  || s.molt.remap.any (·.1 == rowFrame channel row)

/-- ROW_SPARE_COPY (R366, R369, R370): a row of a pseudo-channel is copied to a spare and redirected, between two accesses; `bad`
are the spares in which a verify read finds an error. A lease moves its rows one at a time, each for the time of its test. -/
def execRowSpareCopy (channel row : Nat) (bad : List Nat) (permanent : Bool) (s : State) : Host.Outcome State Fault Refusal :=
  if !isResource 6 channel then .next s
  else match s.molt.lent.find? fun u => u.1 == channel with
  | some u => .next (if u.2.1 = row then s.rowTested u permanent else s)
  | none =>
    if s.rowSettled channel row || (!permanent && !(s.molt.leases.any fun l => l.kind == 6 && l.index == channel && l.testing)) then .next s
    else .next (s.trySpares channel row bad permanent (s.freeSpares channel))

end Sys2Proof.Machine
end

