-- ==== Sys2Proof/Machine/Ports.lean ====
section
/-! DEFINITION. Fabric ports and host ports: the lock state machine, SPDM, flits, and host accesses
(R377, R382 to R387). -/

namespace Sys2Proof.Machine

/-! ### The lock state machine (R384) -/

/-- A port command for one of the 16 ports. -/
def State.onPort (s : State) (port : Nat) (f : State → State) : Host.Outcome State Fault Refusal :=
  .next (if port < 16 then f s else s)

/-- LOCK (R384). -/
def execLockPort (port : Nat) (s : State) : Host.Outcome State Fault Refusal := s.onPort port fun s => s.portLock port

/-- START (R384). -/
def execStartPort (port : Nat) (s : State) : Host.Outcome State Fault Refusal := s.onPort port fun s => s.portStart port

/-- STOP (R384, R377). -/
def execStopPort (port : Nat) (s : State) : Host.Outcome State Fault Refusal := s.onPort port fun s => s.portStop port

/-- PEER_WRITE (R384, R385): a write that changes PORT.PEER. -/
def execPeerWrite (port peer : Nat) (s : State) : Host.Outcome State Fault Refusal :=
  s.onPort port fun s => if bits (s.dev8 (portWord port 0)) 12 0 = peer % 8192 then s else s.portPeer port peer

/-! ### SPDM (R382) -/

/-- The key schedule gives a direction of a port its key and salt, and its flits count from 0 (R383). -/
def newDirection (tick port direction : Nat) : Direction :=
  { key := Config.freeSessionKey tick port direction % 2 ^ 256, salt := Config.freeSessionSalt tick port direction % 2 ^ 32, flits := 0 }

/-- The 96-bit IV of the next flit of a direction: its salt and its counter (R383). -/
def Direction.iv (d : Direction) : Nat := d.salt % 2 ^ 32 * 2 ^ 64 + d.flits % 2 ^ 64

/-- The evidence block of this device (R382): its endpoint and the measurements of the firmware that booted, under the signatures of this
boot (R393). -/
def State.ownEvidence (s : State) : EvidenceBlock :=
  { sep := s.fabric.eid, bytes := Config.freeMeasurements s.eft.runningSvn, ecdsaKey := Config.identityKey
    ecdsa := Config.freeEcdsa s.eft.evidence.1, lmsKey := (treeOf s.eft.evidence.2).1, treeCert := (treeOf s.eft.evidence.2).2
    lms := (s.eft.evidence.2.map Config.freeLms).getD 0 }

/-- The four algorithms that the device offers (R382). -/
def offered : List SpdmAlgorithm := [.ecdsaP384, .sha384, .secp384r1, .aes256gcm]

/-- A peer's evidence block attests the peer of a port: both signatures verify, the LMS one under a tree that the peer's key certifies
(R395), and it names PORT.PEER (R382). -/
def State.attests (s : State) (port : Nat) (e : EvidenceBlock) : Bool :=
  e.sep == bits (s.dev8 (portWord port 0)) 12 0 && Config.ecdsaVerifies e.ecdsaKey e.bytes e.ecdsa && Config.lmsVerifies e.lmsKey e.bytes e.lms
  && Config.ecdsaVerifies e.ecdsaKey (bytesOf 56 e.lmsKey) e.treeCert

/-- Step `n` of the nine SPDM exchanges of a locked port, in their order: it succeeds, or attestation or the key exchange
fails and the port is in ERROR with code 1 (R382, R384). The fifth carries this device's certificate, the seventh its measurement record,
and the ninth establishes the session. Before boot complete the request receives a NACK (R391). -/
def State.spdm (s : State) (port n : Nat) (ok : Bool) : Host.Outcome State Fault Refusal :=
  if !s.eft.booted then .next s.managementNack
  else s.onPort port fun s =>
    let p := s.port port
    if s.portState port ≠ 1 ∨ p.spdm ≠ n then s
    else if !ok then s.portError port 1
    else
      let s := s.setPort port (if n = 8 then
          { p with spdm := 9, established := true, send := newDirection s.tick port 0, recv := newDirection s.tick port 1 }
        else { p with spdm := n + 1 })
      let sent := if n = 4 then Packet.certificate port ownIdentity else if n = 6 then .measurements port s.ownEvidence else .spdm port n
      { s with fabric := { s.fabric with out := s.fabric.out ++ [sent] } }

/-- GET_VERSION (R382). -/
def execGetVersion (port : Nat) (ok : Bool) (s : State) : Host.Outcome State Fault Refusal := s.spdm port 0 ok

/-- GET_CAPABILITIES (R382). -/
def execGetCapabilities (port : Nat) (ok : Bool) (s : State) : Host.Outcome State Fault Refusal := s.spdm port 1 ok

/-- NEGOTIATE_ALGORITHMS (R382): the peer has to offer the four algorithms of this device. -/
def execNegotiateAlgorithms (port : Nat) (algs : List SpdmAlgorithm) (s : State) : Host.Outcome State Fault Refusal :=
  s.spdm port 2 (offered.all algs.contains)

/-- GET_DIGESTS (R382). -/
def execGetDigests (port : Nat) (ok : Bool) (s : State) : Host.Outcome State Fault Refusal := s.spdm port 3 ok

/-- GET_CERTIFICATE (R382). -/
def execGetCertificate (port : Nat) (ok : Bool) (s : State) : Host.Outcome State Fault Refusal := s.spdm port 4 ok

/-- CHALLENGE (R382). -/
def execChallenge (port : Nat) (ok : Bool) (s : State) : Host.Outcome State Fault Refusal := s.spdm port 5 ok

/-- GET_MEASUREMENTS (R382): the peer's evidence block has to attest it. -/
def execGetMeasurements (port : Nat) (peer : EvidenceBlock) (s : State) : Host.Outcome State Fault Refusal :=
  s.spdm port 6 (s.attests port peer)

/-- KEY_EXCHANGE (R382). -/
def execKeyExchange (port : Nat) (ok : Bool) (s : State) : Host.Outcome State Fault Refusal := s.spdm port 7 ok

/-- FINISH (R382): the session stands. -/
def execFinish (port : Nat) (ok : Bool) (s : State) : Host.Outcome State Fault Refusal := s.spdm port 8 ok

/-! ### Flits (R361, R374, R383, R384) -/

/-- KEY_UPDATE (R383): for the direction whose sender issues it, this device or its peer, both sides change keys at one flit, its counter
starts again at 0, and KEYEPOCH rises by one. -/
def execKeyUpdate (side : KeySide) (s : State) : Host.Outcome State Fault Refusal :=
  let port := side.port
  s.onPort port fun s =>
    let p := s.port port
    if !p.established || (side.sender && decide (p.send.flits < 2 ^ 47)) then s
    else
      (s.setPort port (if side.sender then { p with send := newDirection s.tick port 0 } else { p with recv := newDirection s.tick port 1 })).setField
        (portWord port 1) 31 0 (bits (s.dev8 (portWord port 1)) 31 0 + 1)

/-- A port in RUN sends a flit (R383): at a count of 2^47 this device issues KEY_UPDATE, and 2^48 puts the port in ERROR with code 3. -/
def State.sendFlit (s : State) (port : Nat) : State :=
  if port ≥ 16 ∨ s.portState port ≠ 2 then s
  else
    let p := s.port port
    let n := p.send.flits + 1
    if n ≥ 2 ^ 48 then s.portError port 3
    else
      let s := s.setPort port { p with send := { p.send with flits := n } }
      if n = 2 ^ 47 then s.later (.keyUpdate ⟨port, true⟩) else s

/-- FLIT_RECEIVE (R383): a flit of a port in RUN whose tag fails, or a counter that reaches 2^48, puts it in ERROR with code 3;
a replayed flit scores +8 (R361). -/
def execFlitReceive (port : Nat) (tagOk replayed : Bool) (s : State) : Host.Outcome State Fault Refusal :=
  s.onPort port fun s =>
    if s.portState port ≠ 2 then s
    else
      let p := s.port port
      let s := if replayed then s.blame 3 port 8 else s
      let n := p.recv.flits + 1
      if !tagOk || decide (n ≥ 2 ^ 48) then s.portError port 3 else s.setPort port { p with recv := { p.recv with flits := n } }

/-- LINK_RETRAIN (R384): a retrain scores +64 (R361); the third failed one in succession puts a port in RUN in ERROR with
code 4. -/
def execLinkRetrain (port : Nat) (ok : Bool) (s : State) : Host.Outcome State Fault Refusal :=
  s.onPort port fun s =>
    let p := s.port port
    let n := if ok then 0 else p.retrains + 1
    let s := (s.blame 3 port 64).setPort port { p with retrains := n }
    if n ≥ 3 ∧ s.portState port = 2 then s.portError port 4 else s

/-! ### The host (R386, R387) -/

/-- A host port carries traffic. -/
def State.hostOn (s : State) (port : Nat) : Bool := if h : port < 2 then s.hostUp[port] else false

/-- The posted writes that wait are performed, each port's in arrival order; those behind one that waits for a lease or a
pinned line wait too (R386). The flag says that some wait. -/
def State.postHost (s : State) : List (Nat × Nat × List Byte) → List (Nat × Nat × List Byte) → State
  | [], kept => { s with hostWrites := kept }
  | w :: ws, kept =>
    if kept.any (·.1 == w.1) then s.postHost ws (kept ++ [w])
    else
      let bytes := (w.2.2.zipIdx).map fun b => (Loc.dev (w.2.1 + b.2), b.1)
      match s.perform bytes with
      | .ok t => t.postHost ws kept
      | .error _ => s.postHost ws (kept ++ [w])

/-- HOST_WRITE (R386): a posted write of a host port that is up, to device memory; an empty one only looks at those that
wait. -/
def execHostWrite (port addr : Nat) (data : List Byte) (s : State) : Host.Outcome State Fault Refusal :=
  let new := if s.hostOn port ∧ !data.isEmpty ∧ addr + data.length ≤ Config.deviceEnd then [(port, addr, data)] else []
  let t := s.postHost (s.hostWrites ++ new) []
  .next (if t.hostWrites.isEmpty then t else t.retry (.hostWrite port addr []))

/-- HOST_READ (R386): the bytes of device memory leave through the port. -/
def execHostRead (port addr n : Nat) (s : State) : Host.Outcome State Fault Refusal :=
  if s.hostOn port ∧ addr + n ≤ Config.deviceEnd then
    .next { s with fabric := { s.fabric with out := s.fabric.out ++ [.hostData port addr (((Loc.dev addr).run n).map s.byteAt)] } }
  else .next s

/-- The host stores to its own memory, which the device reaches coherently (R386). -/
def State.hostStore (s : State) (addr : Nat) (bs : List Byte) : State :=
  match s.perform (((Loc.host addr).run bs.length).zip bs) with
  | .ok t => t
  | .error _ => s

/-- The state of a host link changes; the Eft reports it (R387). -/
def State.setLink (s : State) (port : Nat) (up : Bool) : State :=
  if h : port < 2 then ({ s with hostUp := s.hostUp.set port up } : State).alert (.hostLink port up) else s

/-- HOST_LINK_UP (R387): a port that the boot record leaves trained comes up; what waited for it goes on at its next try. -/
def execHostLinkUp (port : Nat) (s : State) : Host.Outcome State Fault Refusal :=
  if bits s.eft.portModes (2 * port + 1) (2 * port) ≤ 1 then .next (s.setLink port true) else .next s

/-- HOST_LINK_DOWN (R387): no leaf changes; tier traffic goes to the other port that serves the tier, or waits. -/
def execHostLinkDown (port : Nat) (s : State) : Host.Outcome State Fault Refusal := .next (s.setLink port false)

end Sys2Proof.Machine
end

