-- ==== Sys2Proof/Machine/Eft.lean ====
section
/-! DEFINITION. The Eft: reset and boot, firmware slots, the persistent log, sensors, power, keys and the endpoint ID
(R388, R389, R391 to R398). -/

namespace Sys2Proof.Machine

/-! ### Reset and boot (R391 to R393) -/

/-- The signed bytes of a slot's manifest: the payloads' hashes and the SVN (R393; log entry 5). -/
def manifestOf (f : FwSlot) : List Byte := f.hashes.flatMap (bytesOf 48) ++ bytesOf 8 f.svn

/-- A firmware slot is valid (R393): it is complete, its public keys have the fused hashes, both signatures of its manifest verify, every
payload matches its hash, and its SVN, a number of 64 bits, is at least the fused minimum. -/
def slotValid (f : FwSlot) (fused : Nat × Nat) (minSvn : Nat) : Bool :=
  f.complete && Config.sha384 (bytesOf 96 f.ecdsaKey) == fused.1 && Config.sha384 (bytesOf 56 f.lmsKey) == fused.2
  && Config.ecdsaVerifies f.ecdsaKey (manifestOf f) f.ecdsa && Config.lmsVerifies f.lmsKey (manifestOf f) f.lms
  && (f.payloads.map fun p => Config.sha384 p.2) == f.hashes && decide (minSvn ≤ f.svn ∧ f.svn < 2 ^ 64)

/-- Firmware slot A or B. -/
def Eft.slot (e : Eft) (i : Nat) : FwSlot := if i = 0 then e.slotA else e.slotB

/-- The slot step 1 boots (R393): the active one, else the other, if valid. -/
def Eft.bootSlot (e : Eft) : Option Nat :=
  if slotValid (e.slot e.active) e.fused e.minSvn then some e.active
  else if slotValid (e.slot (1 - e.active)) e.fused e.minSvn then some (1 - e.active)
  else none

/-- What is left of the Eft's state at a reset: its persistent storage and flash, with a pending slot active (R394, R395);
what it held beside starts as at reset. -/
def Eft.restart (e : Eft) : Eft :=
  { Eft.reset with
    slotA := e.slotA, slotB := e.slotB, fused := e.fused, active := if e.pending then 1 - e.active else e.active, pending := false
    minSvn := e.minSvn, log := e.log, nextSeq := e.nextSeq, cycle := e.cycle, leaves := e.leaves, signed := e.signed
    evidence := e.evidence, alerts := e.alerts, retired := e.retired }

/-- The core that a physical core serves after a reset: the spare assignments are restored (R395). -/
def State.servedBy (s : State) (i : Nat) : Option Nat :=
  match s.cores.find? fun c => decide (c.1 < Config.cores) && c.2.phys == i with
  | some c => some c.1
  | none =>
    let cid := i / Config.physicalPerQuadrant * Config.coresPerQuadrant + i % Config.physicalPerQuadrant
    if i % Config.physicalPerQuadrant < Config.coresPerQuadrant ∧ (s.core cid).phys = i then some cid else none

/-- The health-table entry of a core after a reset (R362, R391). -/
def State.healthAt (s : State) (i : Nat) : Nat :=
  if s.eft.retired.contains (resourceId 1 i) then 2 * 2 ^ 52 + 0x7FF
  else match s.servedBy i with
    | some cid => cid
    | none => 3 * 2 ^ 52 + 0x7FF

/-- The physical cores whose entries may differ from those of a module with no retirement state. -/
def State.changedCores (s : State) : List Nat :=
  ((s.cores.filter fun c => decide (c.1 < Config.cores)).flatMap fun c => [c.2.phys, (Core.reset c.1).phys])
    ++ s.eft.retired.filterMap fun r => if r / 2 ^ 20 = 1 then some (r % 2 ^ 20) else none

/-- Step 2 of R391 for the health table: STATE reflects the retirement state, and scores are 0. -/
def State.putHealth (t s : State) : State :=
  let t := (s.changedCores.dedup).foldl (fun (t : State) i => t.putNum (.dev (healthAddr 1 i)) 8 (s.healthAt i)) t
  s.eft.retired.foldl (fun (t : State) r =>
    if r / 2 ^ 20 = 1 then t else t.putNum (.dev (healthAddr (r / 2 ^ 20) (r % 2 ^ 20))) 8 (2 * 2 ^ 52)) t

/-- The module held in reset: every register, queue and memory of it as after reset, its retirement state applied. What lies outside the
module, and what has left it, stays. -/
def State.heldReset (s : State) (e : Eft) : State :=
  { State.reset with
    eft := { e with booted := false, clocks := false }, host := s.host, images := s.images, tick := s.tick
    fabric := { Fabric.reset with out := s.fabric.out }
    molt := { Molt.reset with usedSpares := s.molt.usedSpares, badSpares := s.molt.badSpares, remap := s.molt.remap
                              degraded := s.molt.degraded, standIns := s.molt.standIns.filter fun e => s.eft.retired.contains (resourceId 4 e.1) }
    cores := (s.cores.filter fun c => decide (c.1 < Config.cores) && c.2.phys != (Core.reset c.1).phys).map fun c =>
      (c.1, { Core.reset c.1 with phys := c.2.phys }) }

/-- Step 3 of R391: the payloads are loaded at their physical addresses; the boot record is written over them. -/
def State.loadPayloads (s : State) (f : FwSlot) : State :=
  f.payloads.foldl (fun (t : State) p => t.putBytes (((p.2.zipIdx).filter fun b => decide (0x100 ≤ p.1 + b.2 ∧ p.1 + b.2 < Config.deviceEnd)).map
    fun b => (Loc.dev (p.1 + b.2), b.1))) s

/-- THE MODULE RESET (R391): every partition is discarded; memory is zero with the payloads and the boot record, and the firmware cores
are released. The slot that boots is the active one from then on (R394), and the evidence block of this boot is signed (R393).
Without a valid slot the module stays at step 1 and reports BOOT_FAIL (R393). -/
def State.boot (s : State) : State :=
  let e := s.eft.restart
  let base := s.heldReset e
  match e.bootSlot with
  | none => base.alert .bootFail
  | some r =>
    let t := ((base.loadPayloads (e.slot r)).putHealth s).putNum (.dev 0x28) 8 (e.slot r).svn
    let evidence := (t.eft.signed, t.nextLeaf)
    let t := (t.sign).1
    { t with eft := { t.eft with active := r, runningSvn := (e.slot r).svn, evidence := evidence, booted := true, clocks := true
                                 portModes := bits (t.dev8 0) 3 0 } }

/-- POWER_ON (R391). -/
def execPowerOn (s : State) : Host.Outcome State Fault Refusal := .next s.boot

/-- RESET_MODULE (R391). -/
def execResetModule (s : State) : Host.Outcome State Fault Refusal := .next s.boot

/-! ### Firmware slots (R394) -/

/-- COMMIT_SVN (R394): the fused minimum rises to the running SVN, once boot complete has been reached. -/
def execCommitSvn (s : State) : Host.Outcome State Fault Refusal :=
  if s.eft.booted then .next { s with eft := { s.eft with minSvn := max s.eft.minSvn s.eft.runningSvn } } else .next s

/-- FIRMWARE_UPDATE_WRITE (R394): the inactive slot, from which nothing runs, is written; it is pending only if it is valid. -/
def execFirmwareUpdateWrite (image : FwSlot) (s : State) : Host.Outcome State Fault Refusal :=
  let e := if s.eft.active = 0 then { s.eft with slotB := image } else { s.eft with slotA := image }
  .next { s with eft := { e with pending := slotValid image e.fused e.minSvn } }

/-! ### The management interface (R395, R396) -/

/-- LOG_READ (R395): the records from SEQ n on. -/
def execLogRead (n : Nat) (s : State) : Host.Outcome State Fault Refusal :=
  .next (s.alert (.log ((s.eft.log.filter fun r => decide (n ≤ r.seq)).map LogRec.bytes)))

/-- SENSOR_READ (R396): the value last sampled. -/
def execSensorRead (n : Nat) (s : State) : Host.Outcome State Fault Refusal :=
  match s.eft.sensors.lookup n with
  | some v => .next (s.alert (.sensor n v))
  | none => .next s

/-! ### Sensors and limits (R396 to R398) -/

/-- Thermal trip (R398): THERMAL_TRIP is logged, every clock stops and the module holds reset. -/
def State.thermalTrip (s : State) : State :=
  let s := s.logRecord (Config.freeTripKind s.eft.nextSeq) 0 0 0 0 0
  let s := s.alert .thermalTrip
  s.heldReset { s.eft with tripped := true }

/-- The quadrant of a ring cluster (R9, R396). -/
def clusterQuad (n : Nat) : Nat := n / 34

/-- The limit of a quadrant has fallen by some steps (R398). -/
def Eft.setSteps (e : Eft) (q n : Nat) : Eft := if h : q < 4 then { e with quadSteps := e.quadSteps.set q n } else e

/-- The steps by which the limit of a quadrant has fallen. -/
def Eft.steps (e : Eft) (q : Nat) : Nat := if h : q < 4 then e.quadSteps[q] else 0

/-- The issue credits of a window that fit in the module's limit (R397, R398): fewer at 1,500 W. -/
def Eft.moduleCredits (e : Eft) : Nat := Config.freeModuleCredits - if e.moduleLimit < 3000 then Config.freeLimitCut else 0

/-- The issue credits of a window that fit in the limit of a quadrant which has fallen by some steps (R398): each step leaves fewer. -/
def quadrantCredits : Nat → Nat
  | 0 => Config.freeQuadrantCredits
  | n + 1 => quadrantCredits n - (Config.freeQuadrantStep n + 1)

/-- The sum of the budgets of some clusters but one (R397). -/
def Eft.budgetSum (e : Eft) (but : Nat) (in_ : Nat → Bool) : Nat := ((e.granted.filter fun b => b.1 != but && in_ b.1).map (·.2)).sum

/-- How much of a budget a cluster may have beside those of the others (R397): within the module's limit, and within that of a quadrant
whose limit has fallen (R398; log entry 83). -/
def Eft.room (e : Eft) (cluster budget : Nat) : Nat :=
  let q := clusterQuad cluster
  let whole := min budget (e.moduleCredits - e.budgetSum cluster fun _ => true)
  if e.steps q = 0 then whole else min whole (quadrantCredits (e.steps q) - e.budgetSum cluster fun k => clusterQuad k == q)

/-- A new window of a cluster begins with a budget of issue credits (R397). -/
def Eft.grant (e : Eft) (cluster budget : Nat) : Eft :=
  let b := e.room cluster budget
  { e with granted := assocSet e.granted cluster b, budgets := assocSet e.budgets cluster b }

/-- A limit that has changed cuts the budgets that stand, so that their sum is within it again (R397, R398). -/
def Eft.cut (e : Eft) : Eft :=
  e.granted.foldl (fun (t : Eft) g =>
    let b := t.room g.1 g.2
    { t with granted := assocSet t.granted g.1 b, budgets := assocSet t.budgets g.1 (min b ((e.budgets.lookup g.1).getD 0)) })
    { e with granted := [], budgets := [] }

/-- A hot-spot sample, in steps of 0.25 °C (R398): from 105 °C until the spot is below 100 °C each sample lowers the quadrant's limit by a
step; 120 °C trips. DESIGN CHOICE (log entry 83): the limit is whole again once every spot of the quadrant is below 100 °C. -/
def State.hotSpot (s : State) (n v : Nat) : State :=
  let l := s.eft.lowered
  let low := if v ≥ 420 then (if l.contains n then l else l ++ [n]) else if v < 400 then l.filter (· != n) else l
  let q := clusterQuad n
  let steps := if low.contains n then s.eft.steps q + 1 else if low.any fun k => clusterQuad k == q then s.eft.steps q else 0
  let s : State := { s with eft := (({ s.eft with lowered := low }).setSteps q steps).cut }
  if v ≥ 480 then s.thermalTrip else s

/-- An HBM stack sample, in steps of 0.25 °C (R398). -/
def State.hbmSample (s : State) (stack v : Nat) : State :=
  let rest := s.eft.throttled.filter (· != stack)
  { s with eft := { s.eft with throttled := if v ≥ 380 then rest ++ [stack] else rest } }

/-- The module limit follows the coolant's inlet temperature (0.1 °C) and its flow (0.05 L/min) (R397, R398). -/
def State.coolant (s : State) : State :=
  let v := fun n => s.eft.sensors.lookup n
  let hot := match v 148 with | some t => decide (450 < t) | none => false
  let slow := match v 150 with | some f => decide (f < 40) | none => false
  { s with eft := ({ s.eft with moduleLimit := if hot || slow then 1500 else 3000 }).cut }

/-- A flow sample below 0.5 L/min for one second trips (R398). -/
def State.flowSample (s : State) (v : Nat) : State :=
  if v ≥ 10 then { s with eft := { s.eft with flowLow := none } }
  else match s.eft.flowLow with
    | none => { s with eft := { s.eft with flowLow := some s.tick } }
    | some t => if Config.freeSecond t s.tick then s.thermalTrip else s

/-- SENSOR_SAMPLE (R396, R398): sensors 0 to 135 are the hot spots, 136 to 147 the HBM stacks, 148 and 149 the coolant inlet and
outlet, 150 the flow, 151 and 152 the input voltage and current. After a thermal trip no clock runs, the Eft's among them (R398). -/
def execSensorSample (n value : Nat) (s : State) : Host.Outcome State Fault Refusal :=
  if n ≥ 153 ∨ s.eft.tripped then .next s
  else
    let s : State := { s with eft := { s.eft with sensors := assocSet s.eft.sensors n value } }
    if n < 136 then .next (s.hotSpot n value)
    else if n < 148 then .next (s.hbmSample (n - 136) value)
    else if n = 148 then .next s.coolant
    else if n = 150 then .next (s.coolant.flowSample value)
    else .next s

/-- CREDIT_GRANT (R397): a ring cluster receives its budget of issue credits for a window. -/
def execCreditGrant (cluster budget : Nat) (s : State) : Host.Outcome State Fault Refusal :=
  if cluster < Config.cores / 8 then .next { s with eft := s.eft.grant cluster budget } else .next s

/-- CREDIT_FLOOR (R397): a cluster that has received no grant for 4 µs uses its floor budget, which the limits bound as any other. -/
def execCreditFloor (cluster : Nat) (s : State) : Host.Outcome State Fault Refusal :=
  if cluster < Config.cores / 8 then .next { s with eft := s.eft.grant cluster Config.freeFloorCredits } else .next s

/-! ### Keys and the endpoint ID (R378, R388, R389) -/

/-- A management request over the fabric acts after boot complete (R391). -/
def State.managed (s : State) (f : State → State) : Host.Outcome State Fault Refusal :=
  .next (if s.eft.booted then f s else s.managementNack)

/-- POD_KEY_PROVISION (R388). -/
def execPodKeyProvision (key : Nat) (s : State) : Host.Outcome State Fault Refusal :=
  s.managed fun s => { s with eft := { s.eft with podKey := some key } }

/-- EID_ASSIGN (R389): the pod manager assigns the device's 13-bit endpoint ID, or removes it; 8,192 names no endpoint. The SEQ counts
with a newly assigned one's own cores begin again (R377; log entry 72). DESIGN CHOICE (log entry 67): while the device has no EID the
tokens it makes carry EP 0, and no token, window or address names it. -/
def execEidAssign (eid : Option Nat) (s : State) : Host.Outcome State Fault Refusal :=
  s.managed fun s =>
    let n := match eid with | some e => e % 8192 | none => 8192
    let f := if n = s.fabric.eid then s.fabric
      else { s.fabric with txSeq := s.fabric.txSeq.filter (·.1.2 != n), rxSeq := s.fabric.rxSeq.filter (·.1.1 != n) }
    { s with fabric := { f with eid := n } }

end Sys2Proof.Machine
end

