-- ==== Sys2Proof/Machine/Inbox.lean ====
section
/-! DEFINITION. Events of messages: arrival, the overflow ring, device-generated messages, resends and handler coroutines
(R21 to R23, R93 to R96, R400). -/

namespace Sys2Proof.Machine

/-- OVERFLOW_MOVE (R93, R95, R96): the head of the overflow ring moves to the inbox when it fits; with room again the holds
on senders end and a held device message may enter. -/
def execOverflowMove (cid : Nat) (s : State) : Host.Outcome State Fault Refusal :=
  match (s.core cid).ovf with
  | [] => .next s
  | m :: r =>
    if s.ringLeased cid then .next (s.retry (.overflowMove cid))
    else
    match s.placeInbox cid m with
    | none => .next s
    | some t =>
      let t := t.onCore cid fun c => { c with ovf := r }
      let c := t.core cid
      let t := if c.ovfUnits ≤ c.ovfQuota - 4 ∧ c.holds ≠ [] then t.releaseHolds cid else t
      let t := if c.generated.isEmpty then t else t.later (.generatedMsgPlace cid)
      .next (if r.isEmpty then t else t.later (.overflowMove cid))

/-- GENERATED_MSG_PLACE (R95): the first message of the device that found no room is placed when there is room. -/
def execGeneratedMsgPlace (cid : Nat) (s : State) : Host.Outcome State Fault Refusal :=
  match (s.core cid).generated with
  | [] => .next s
  | m :: r =>
    match (s.onCore cid fun c => { c with generated := [] }).arrive cid m true with
    | .placed t =>
      let t := t.onCore cid fun c => { c with generated := r }
      .next (if r.isEmpty then t else t.later (.generatedMsgPlace cid))
    | .wait => .next (s.retry (.generatedMsgPlace cid))
    | .kept _ | .breach _ => .next s

/-- The n-th kept message can be sent again: its destination holds this source no longer, and no message of the same pair of cores is kept
before it (R92, R96). -/
def State.canResend (s : State) (n : Nat) : Bool :=
  match s.fabric.kept[n]? with
  | none => false
  | some k => !s.fabric.heldSelf k.ep && (s.fabric.kept.take n).all fun j => !(j.ep == k.ep && j.cid == k.cid && j.dcid == k.dcid)

/-- MESSAGE_RESEND (R96): of the kept messages from the n-th on, and then of those before it, the first that can be is sent again; the next
one of its destination follows. -/
def execMessageResend (n : Nat) (s : State) : Host.Outcome State Fault Refusal :=
  let all := List.range s.fabric.kept.length
  match (all.drop n ++ all.take n).find? s.canResend with
  | none => .next s
  | some i => match s.fabric.kept[i]? with
    | none => .next s
    | some k =>
      let t : State := { s with fabric := { s.fabric with kept := listDrop1 s.fabric.kept i } }
      .next ((t.send k.cid k.ep (.msg k.dcid k.msg) (.msg k.cid k.gid k.coid)).resendKept k.ep)

/-- The message vector entry of a type: its two words, where they can be read (R22, R293). -/
def State.vectorEntry (s : State) (cid type : Nat) : Option (Nat × Nat) :=
  match s.vectorSpot cid type with
  | .error _ => none
  | .ok p => some (s.numAt (p.locs.take 8), s.numAt (p.locs.drop 8))

/-- The registers of a handler coroutine (R21): x1 to x7 the message bytes 8 to 63, x8 the header, x9 the record's address. -/
def handlerCtx (haddr vn at_ : Nat) (m : Msg) : Ctx :=
  let x := ofBytes (msgBytes m)
  { Ctx.fresh vn with
    pc := word haddr
    x := Vector.ofFn fun i : Fin 32 =>
      if 1 ≤ i.val ∧ i.val ≤ 7 then word (imageNum x (8 * i.val) 8)
      else if i.val = 8 then word (msgHeader m)
      else if i.val = 9 then word at_ else 0 }

/-- HANDLER_CREATE (R23): the message at the head makes its handler coroutine; with no valid entry or no live gang it raises
MSG_NOHANDLER, once for each message, and a full core or a context cache without room makes it wait. A drain empties the ring as it stands
(R345). DESIGN CHOICE (log entry 60):
the core takes the coroutine whatever its LPART is, although R24 keeps one off a core of another LPART. -/
def execHandlerCreate (cid : Nat) (s : State) : Host.Outcome State Fault Refusal :=
  let c := s.core cid
  match if s.halts cid then none else c.inbox.find? fun r => !r.pad && !r.made with
  | none => .next s
  | some r =>
    let part := s.partOf cid
    let raised := fun k : InboxRec => if k.unit == r.unit && !k.pad then { k with raised := true } else k
    let none_ := if r.raised then s
      else (s.setCore cid { c with inbox := c.inbox.map raised }).postAsync cid
        { cause := .msgNohandler, val := word (msgHeader r.msg), val2 := word r.msg.type }
    match s.vectorEntry cid r.msg.type with
    | none => .next none_
    | some (w0, w1) =>
      match if bit w1 63 then s.gangs.find? fun g => g.gid == bits w1 47 32 && g.part == part && !g.ending else none with
      | none => .next none_
      | some g =>
        if c.coros.length ≥ Config.maxCoroutines then .next s
        else
          let at_ := 0x0100000000000000 + (c.inboxOff + r.unit) * 64
          let mark := fun k : InboxRec => if k.unit == r.unit && !k.pad then { k with made := true } else k
          match s.create g cid (bits w1 10 8) (handlerCtx (bits w0 56 2 * 4) (bits w1 1 0) at_ r.msg) (some (cid, r.unit)) with
          | .error t => .next (t.retry (.handlerCreate cid))
          | .ok t =>
            let t := t.onCore cid fun c => { c with inbox := c.inbox.map mark }
            .next (if (t.core cid).inbox.any fun r => !r.pad && !r.made then t.later (.handlerCreate cid) else t)

end Sys2Proof.Machine
end

