-- ==== Sys2Proof/Machine/Fabric.lean ====
section
/-! DEFINITION. Events of the fabric: allowance grants, queued remote stores, requests that arrive, and the answers to
requests that were sent (R34 to R37, R82, R113, R223 to R225, R374 to R381, R399). -/

namespace Sys2Proof.Machine

/-! ### Allowance (R34 to R36) -/

/-- A grant of a destination can reach this device: it does not hold the allowance at zero (R37), and one of another endpoint comes over a
port in RUN (R384). -/
def State.grantable (s : State) (ep : Nat) : Bool := !s.fabric.heldSelf ep && (ep == s.fabric.eid || s.linked)

/-- Another endpoint holds this device's allowance at zero no longer (R37, R96). -/
def State.restoredBy (s : State) (ep : Nat) : State :=
  if ep = s.fabric.eid ∨ !s.linked then s else { s with fabric := { s.fabric with heldFor := s.fabric.heldFor.filter (· != ep) } }

/-- ALLOWANCE_GRANT (R35, R37): returned units reach the source; the messages kept for that destination are sent again (R96). A grant of
another endpoint that held the allowance at zero restores it. -/
def execAllowanceGrant (ep units : Nat) (s : State) : Host.Outcome State Fault Refusal :=
  let s := s.restoredBy ep
  if s.grantable ep then .next ((s.grant ep units).resendKept ep) else .next s

/-- ALLOWANCE_RESERVED_GRANT (R36, R37): the reserved unit of a destination that a request, or a kept message (R96), waits for. -/
def execAllowanceReservedGrant (ep : Nat) (s : State) : Host.Outcome State Fault Refusal :=
  let waits := (s.fabric.waits.any fun w => w.ep == ep && decide (w.got < w.u)) || s.fabric.kept.any (·.ep == ep)
  if waits ∧ s.grantable ep then .next ((s.grant ep 1).resendKept ep) else .next s

/-- The address a remote store names in a trap value: its base (R225). -/
def opBase : ReqOp → Word
  | .store a _ _ => a
  | .vec v => v.base
  | .load a _ => a
  | .atomic _ _ a _ _ => a
  | .fe _ a _ => a
  | .contribute tok _ => tok
  | .syncRead tok => tok
  | .register tok => tok
  | .msg dcid _ => word dcid
  | .wake g => word g
  | .push .. => 0

/-- The queued remote stores of a core that stand first for their destination group, with their places in the queue (R225); each keeps the
group its endpoint had when it began to wait (R378), and stores to one endpoint leave in their order, behind the messages that their
coroutine sent there before (R106, R114, R118). -/
def State.outHeads (s : State) (cid : Nat) : List (RemoteStore × Nat) :=
  let q := (s.core cid).outq.zipIdx
  q.filter fun e => ((q.take e.2).all fun d => d.1.group != e.1.group && d.1.ep != e.1.ep)
    && !s.msgAhead cid (e.1.gid, e.1.coid) e.1.ep

/-- A queued remote store leaves with its units drawn (R225), and lines that waited for room in the queue take it (R113). -/
def State.storeLeaves (s : State) (cid : Nat) (q : RemoteStore) (i : Nat) : State :=
  let t := (s.onCore cid fun c => { c with outq := listDrop1 c.outq i }).send cid q.ep q.op (.store cid q.gid q.coid (opBase q.op))
  let t := t.sendLines cid CombLine.full
  if (t.core cid).outq.isEmpty then t else t.later (.remoteStoreSend cid)

/-- REMOTE_STORE_SEND (R225): each destination group has its queue; the first store of a queue leaves once its units are held, and one
that lacks them holds no other group back. -/
def execRemoteStoreSend (cid : Nat) (s : State) : Host.Outcome State Fault Refusal :=
  let heads := s.outHeads cid
  match heads.findSome? fun e => (s.draw (.stores cid) e.1.ep e.1.u).map fun t => (t, e) with
  | some (t, e) => .next (t.storeLeaves cid e.1 e.2)
  | none => .next (heads.foldl (fun t e => t.queueFor (.stores cid) e.1.ep e.1.u) s)

/-- COMBINE_FLUSH_TIMEOUT (R113): the n-th combining-buffer line of a core is sent 4,096 cycles after its first store. -/
def execCombineFlushTimeout (cid n : Nat) (s : State) : Host.Outcome State Fault Refusal :=
  match (s.core cid).comb[n]? with
  | none => .next s
  | some l =>
    if (s.core cid).cycle < l.since + 4096 then .next s
    else .next ((s.sendLines cid (· == l)).later (.remoteStoreSend cid))

/-! ### Requests that arrive (R376 to R381) -/

/-- What a target makes of a request. -/
inductive Served where
  | answer (s : State) (r : Resp)
  | nack (s : State)
  /-- The request waits at the target, for a lease or a host port. -/
  | wait

/-- A place of a remote access: T pages are served in host memory while a port is up (R97, R387). -/
def State.remoteSpot (s : State) (part va n : Nat) (write : Bool) : Except Stop (List Loc) := do
  let p ← lift (s.locateBound part va n 1 write)
  if !p.tiers.isEmpty && !s.tierUp then .error .wait else pure p.locs

/-- The end of a request that could not be served. -/
def Served.of (s : State) : Stop → Served
  | .wait => .wait
  | .trap _ => .nack s

/-- A range of the size R374 allows: 1 to 256 bytes in one 256-byte block. -/
def packetOkFor (a n : Nat) : Bool := decide (1 ≤ n ∧ n ≤ 256) && a / 256 == (a + n - 1) / 256

/-- Bytes of a load with the positions of the poisoned ones (R360). -/
def State.readBad (s : State) (ls : List Loc) : Resp :=
  .data (ls.map s.byteAt) ((ls.zipIdx.filter fun l => s.poisonAt l.1).map (·.2))

/-- A write of a remote request: masked bytes at an address, with their poison (R360, R374). -/
def State.remoteWrite (s : State) (part a : Nat) (data : List (Option Byte)) (bad : List Nat) : Except Stop State := do
  let ws ← (data.zipIdx.filter (·.1.isSome)).mapM fun d => do
    let l ← s.remoteSpot part ((a + d.2) % 2 ^ 64) 1 true
    pure (l.map fun l => (l, d.1.getD 0, bad.contains d.2))
  let ws := ws.flatten
  let t ← s.perform (ws.map fun w => (w.1, w.2.1))
  pure (((ws.filter (·.2.2)).map (·.1.word)).dedup.foldl (fun t l => t.putPoison l true) t)

/-- The elements of a vector request: address and bytes, in index order (R114, R223). -/
def vecAddrs (v : VecReq) : List Nat :=
  let act := (List.range v.vl).filter fun i => v.act.getD i false
  (List.range act.length).map fun r => vecAddr v (act.getD r 0) r

/-- The eight words of a vector request's first unit (R376). -/
def vecHeader (r : Req) (v : VecReq) : List Nat :=
  let rsv := fun lo n : Nat => v.reserved / 2 ^ lo % 2 ^ n
  [v.kind % 16 * 2 ^ 60 + v.esz % 4 * 2 ^ 58 + flag v.ixw * 2 ^ 57 + flag v.byp * 2 ^ 56 + rsv 8 12 * 2 ^ 44 + r.spart % 16 * 2 ^ 40
      + (v.vl - 1) % 256 * 2 ^ 32 + rsv 5 3 * 2 ^ 29 + r.sep % 2 ^ 13 * 2 ^ 16 + rsv 0 5 * 2 ^ 11 + r.scid % 2 ^ 11,
    v.base.toNat, v.stride.toNat, rsv 20 48 * 2 ^ 16 + r.seq % 65536]
  ++ (List.range 4).map fun w => ((List.range 64).map fun i => flag (v.act.getD (64 * w + i) false) * 2 ^ i).sum

/-- The bytes of a vector request (R376): its header, the indices and the data of the active elements, and zeros up to a whole unit. -/
def vecPacket (r : Req) (v : VecReq) : List Byte :=
  let body := v.idx.flatMap (bytesOf (if v.ixw then 8 else 4)) ++ v.data.flatMap (bytesOf (2 ^ v.esz))
  (vecHeader r v).flatMap (bytesOf 8) ++ body ++ List.replicate ((64 - body.length % 64) % 64) 0

/-- A vector request at its target (R223, R376): every element is checked before any takes effect. -/
def State.serveVec (s : State) (part : Nat) (v : VecReq) : Served :=
  let n := 2 ^ v.esz
  if v.kind = 0 ∨ v.kind > 4 ∨ v.vl = 0 ∨ v.vl > 256 ∨ v.reserved ≠ 0 ∨ (v.act.drop v.vl).any id then .nack s
  else
    match (vecAddrs v).mapM fun a => s.remoteSpot part a n (decide (v.kind ≥ 3)) with
    | .error e => Served.of s e
    | .ok ls =>
      if v.kind < 3 then .answer s (s.readBad ls.flatten)
      else
        let ws := (ls.zip (vecWrites v)).flatMap fun e => e.1.zip e.2.2.1
        match s.perform ws with
        | .error e => Served.of s e
        | .ok t =>
          let bad := (ls.zip (vecWrites v)).filter (·.2.2.2)
          .answer (bad.foldl (fun t e => ((e.1.map Loc.word).dedup).foldl (fun t l => t.putPoison l true) t) t) .ack

/-- The place of an aligned word of a remote atomic; a T page refuses it (R97, R381). -/
def State.atomicSpot (s : State) (part a n : Nat) : Except Stop Spot := do
  let p ← lift (s.locateBound part a n n true)
  lift (p.noTier a)

/-- An operation that reads a poisoned word of this device's memory is refused (R360). -/
def State.cleanAt (s : State) (ls : List Loc) : Bool := !ls.any s.poisonAt

/-- A remote atomic or full/empty operation at its home unit (R112, R381); only one that reads its word is refused where it is poisoned (R360):
an atomic, and an LDFE of a full word (R256). One outside the table of R374 is refused. -/
def State.serveAtomic (s : State) (part : Nat) (r : Req) : Served :=
  match r.op with
  | .atomic op dbl a b c =>
    if op.toNat > 9 then .nack s
    else match s.atomicSpot part a.toNat (if dbl then 8 else 4) with
    | .error e => Served.of s e
    | .ok p => if !s.cleanAt p.locs then .nack s else match s.atomicAt p.locs op.toNat b c with
      | .ok (t, old) => .answer t (.value old)
      | .error e => Served.of s e
  | .fe op a v =>
    if op > 3 then .nack s
    else match s.atomicSpot part a.toNat 8 with
    | .error e => Served.of s e
    | .ok p => match p.locs with
      | [] => .nack s
      | l :: _ => if op = 0 ∧ s.fullAt l ∧ !s.cleanAt p.locs then .nack s else match s.feAt l p.lines op v (.remote r.sep r.scid r.rid) with
        | .ok (.done t x) => .answer t (.value x)
        | .ok (.held t) => .answer t .held
        | .error e => Served.of s e
  | _ => .nack s

/-- A sync-word operation of another endpoint at its word (R88, R91, R399). -/
def State.serveSync (s : State) (part : Nat) (r : Req) : Served :=
  let root := (s.rootsOf part).1
  match r.op with
  | .contribute tok n =>
    match s.granSpot root true true (tokenGran tok) with
    | .error _ => .nack s
    | .ok l =>
      if (l.run 16).any fun x => s.leased x || s.pinned x then .wait
      else if s.syncV l then .answer (s.contributeAt l n) .ack
      else .answer s (.sync false (s.syncGen l))
  | .syncRead tok =>
    match s.granSpot root true false (tokenGran tok) with
    | .error _ => .nack s
    | .ok l => .answer s (.sync (s.syncV l) (s.syncGen l))
  | .register tok =>
    match s.granSpot root true false (tokenGran tok) with
    | .error _ => .nack s
    | .ok l =>
      .answer (s.addWaiter { gran := tokenGran tok, loc := l, who := .remote r.sep part }) (.sync (s.syncV l) (s.syncGen l))
  | _ => .nack s

/-- A push to an undeclared grid is held for its source; one that a gang exit discarded is acknowledged and lands nowhere (R42, R127,
R267). -/
def State.holdPush (s : State) (h : HeldPush) (last : Bool) : Served :=
  let put := fun l => ({ s with fabric := { s.fabric with heldPushes := l } } : State)
  if s.fabric.heldPushes.contains { h with dropped := true } then
    .answer (if last then put (s.fabric.heldPushes.erase { h with dropped := true }) else s) .ack
  else .answer (if s.fabric.heldPushes.contains h then s else put (s.fabric.heldPushes ++ [h])) .held

/-- What a landed push answers: SYNC_UNINIT belongs to the core that published it, where its ghost word shows V = 0 (R88, R128). DEDUCED
(log entry 81): where the ghost word is unreachable the push has landed, its advance is held here as R399 holds it, and nobody of this
device receives a report. -/
def State.pushAnswer (s t : State) (g : Grid) (j : Nat) : Resp :=
  let complete := fun s : State => ((s.grids.find? fun k => k.part == g.part && k.key == g.key).bind (·.block j)).map (·.complete)
  match t.granSpot (t.rootsOf g.part).1 true true ((g.sync + 32 * j) / 16) with
  | .ok l => if complete s != complete t && !t.syncV l then .sync false (t.syncGen l) else .ack
  | .error _ => .ack

/-- A packet of a halo push has the size that R375 allows: elements of the grid's type, at most 256 bytes within one 256-byte block. -/
def Grid.packetOk (g : Grid) (blk st : Nat) (els : List (Nat × List Byte × Bool)) : Bool :=
  let blockOf := fun e : Nat × List Byte × Bool => g.pushAddr blk st e.1 / 256
  els.all (fun e => e.2.1.length == g.esize && (els.head?.map blockOf) == some (blockOf e)
    && (g.pushAddr blk st e.1 + g.esize - 1) / 256 == blockOf e) && decide (els.length * g.esize ≤ 256)

/-- A halo push of another endpoint (R127, R267): its elements are stored, and its last packet lands its part of the region. One that a
gang exit discarded lands in no later grid of its key (R42). -/
def State.servePush (s : State) (part : Nat) (r : Req) : Served :=
  match r.op with
  | .push sn key blk region piece step els =>
    let last := piece % 2 == 0
    let h : HeldPush := { part := part, sep := r.sep, scid := r.scid, sn := sn, key := key, blk := blk, region := region, piece := piece / 2, step := step,
                          dropped := false }
    match if s.fabric.heldPushes.contains { h with dropped := true } then none else s.grids.find? fun g => g.part == part && g.key == key with
    | none => s.holdPush h last
    | some g =>
      if !g.packetOk blk step els then .nack s else
      match s.gangOfGrid g, g.block (g.localOf blk) with
      | some k, some _ =>
        match s.storeEls g k (g.localOf blk) (step % g.depth) els with
        | .error e => Served.of s e
        | .ok t =>
          let t : State := { t with fabric := { t.fabric with heldPushes := t.fabric.heldPushes.erase h } }
          match if last then t.grids.find? fun g => g.part == part && g.key == key else none with
          | some g =>
            let u := t.partLanded g (g.localOf blk) region step (piece / 2) (.remote r.sep part)
            .answer u (t.pushAnswer u g (g.localOf blk))
          | none => .answer t .ack
      | _, _ => .nack s
  | _ => .nack s

/-- A wake notice of another endpoint: the cores whose coroutines hold tokens of the word ask for it again (R91). -/
def State.remoteWake (s : State) (sep gran : Nat) : State :=
  s.cores.foldl (fun t c =>
    if c.2.coros.any fun k => !k.met && k.tokensOn sep gran != [] then t.register c.1 0 true (tokenOf sep gran 0)
    else t) s

/-- A WAIT of a launch processor on a word of another endpoint is looked at again (R320). -/
def State.remoteWakeQueues (s : State) (sep gran : Nat) : State :=
  (List.range 4).foldl (fun t q =>
    (t.quad q).slots.foldl (fun t e =>
      if bits e.qctl.toNat 56 54 = 2 ∧ tokenEp e.ftoken = sep ∧ tokenGran e.ftoken = gran then
        t.askWait q (bits (t.qword q e.qsb 8) 50 47) e.ftoken
      else t) t) s

/-- A request after its match: what it writes needs WR (R379). -/
def State.serveBound (s : State) (part : Nat) (wr : Bool) (r : Req) : Served :=
  let need := match r.op with
    | .load _ _ | .syncRead _ | .register _ | .wake _ => false
    | .vec v => decide (v.kind ≥ 3)
    | _ => true
  if need && !wr then .nack s
  else
    match r.op with
    | .load a n =>
      if !packetOkFor a.toNat n then .nack s
      else match s.remoteSpot part a.toNat n false with
        | .error e => Served.of s e
        | .ok ls => .answer s (s.readBad ls)
    | .store a data bad =>
      if !packetOkFor a.toNat data.length then .nack s
      else match s.remoteWrite part a.toNat data bad with
        | .error e => Served.of s e
        | .ok t => .answer t .ack
    | .vec v => s.serveVec part v
    | .atomic _ _ _ _ _ | .fe _ _ _ => s.serveAtomic part r
    | .contribute _ _ | .syncRead _ | .register _ => s.serveSync part r
    | .msg dcid m =>
      if dcid ≥ Config.cores ∨ s.partOf dcid ≠ part then .nack s
      else match s.arrive dcid m false with
        | .placed t | .kept t => .answer t .ack
        | .breach t => .answer t .held
        | .wait => .wait
    | .push .. => s.servePush part r
    | .wake g => .answer ((s.remoteWake r.sep g).remoteWakeQueues r.sep g) .ack

/-- What a SEQ is to a target that acts on each source's packets in SEQ order (R377): the next one, one acted on before, or one ahead
of its turn. The first of another endpoint's core sets the count (log entry 72). -/
inductive SeqAt where
  | next
  | again
  | ahead
  deriving DecidableEq, Repr

/-- The place of a request in its source's order (R114, R377). -/
def State.seqAt (s : State) (r : Req) : SeqAt :=
  match (s.fabric.rxSeq.lookup (r.sep, r.scid)).or (if r.sep = s.fabric.eid then some 65535 else none) with
  | none => .next
  | some n =>
    let d := (r.seq + 65536 - n % 65536) % 65536
    if d = 1 then .next else if d = 0 ∨ d ≥ 32768 then .again else .ahead

/-- Remember the SEQ acted on last (R377). -/
def State.noteSeq (s : State) (r : Req) : State :=
  { s with fabric := { s.fabric with rxSeq := assocSet s.fabric.rxSeq (r.sep, r.scid) (r.seq % 65536) } }

/-- The first request of a source sets where its order begins, also while it waits (R92, R377). -/
def State.firstSeq (s : State) (r : Req) : State :=
  if (s.fabric.rxSeq.lookup (r.sep, r.scid)).isSome then s else s.noteSeq { r with seq := (r.seq + 65535) % 65536 }

/-- A partition takes a request: it is ACTIVE, or DRAINING and the request is one of its own that was on the fabric before (R345 steps 2
and 3). -/
def State.admits (s : State) (part : Nat) (r : Req) : Bool :=
  s.partState part == 1 || (s.partState part == 2 && r.sep == s.fabric.eid && r.spart == part)

/-- A request whose turn it is: matched, acted on and answered (R82, R379); one on a virtual channel that R374 does not give its operation
is refused. -/
def State.serveNow (s : State) (again : Instr) (r : Req) : State :=
  match s.boundTo r.sep r.spart with
  | none => (s.noteSeq r).refuse r.sep r.scid r.rid
  | some (part, wr) =>
    if r.vc ≠ vcOf r.op ∨ !s.admits part r then (s.noteSeq r).refuse r.sep r.scid r.rid
    else
      match s.serveBound part wr r with
      | .answer t x => (t.noteSeq r).respond r.sep r.scid r.rid x
      | .nack t => (t.noteSeq r).refuse r.sep r.scid r.rid
      | .wait => (s.firstSeq r).retry again

/-- AN ARRIVING REQUEST (R82, R377, R379): acted on in its source's order, each SEQ once; a duplicate is only acknowledged, and one
ahead of its turn waits. One of another endpoint comes over a port in RUN (R384). -/
def State.serve (s : State) (again : Instr) (r : Req) : State :=
  if r.sep ≠ s.fabric.eid ∧ !s.linked then s
  else
    match s.seqAt r with
    | .again => s.respond r.sep r.scid r.rid .ack
    | .ahead => s.retry again
    | .next => s.serveNow again r

/-- REMOTE_REQUEST (R379). -/
def execRemoteRequest (r : Req) (s : State) : Host.Outcome State Fault Refusal := .next (s.serve (.remoteRequest r) r)

/-- VECTOR_REQUEST (R376). -/
def execVectorRequest (r : Req) (v : VecReq) (s : State) : Host.Outcome State Fault Refusal :=
  .next (s.serve (.vectorRequest r v) { r with op := .vec v })

/-- MESSAGE_ARRIVAL (R92 to R96, R379): a message for a core arrives; a breach of the quota answers that its source keeps it. -/
def execMessageArrival (r : Req) (m : Delivery) (s : State) : Host.Outcome State Fault Refusal :=
  .next (s.serve (.messageArrival r m) { r with op := .msg m.cid m.msg })

/-- REMOTE_ATOMIC_REQUEST (R381): a packet that is an atomic, a full/empty or a sync-word operation. -/
def execRemoteAtomicRequest (r : Req) (s : State) : Host.Outcome State Fault Refusal :=
  match r.op with
  | .atomic _ _ _ _ _ | .fe _ _ _ | .contribute _ _ | .syncRead _ | .register _ => .next (s.serve (.remoteAtomicRequest r) r)
  | _ => .next s

/-! ### Answers (R121, R224, R225, R245, R252 to R256) -/

/-- Requests that wait for a port look for one again (R374), and a port withdrawn from service whose packets have all been answered erases
its keys (R366, R384). -/
def State.settlePorts (s : State) : State :=
  (List.range 16).foldl (fun t i =>
    if (t.port i).leaving && !(t.fabric.sent.any fun r => r.way == .port i) then (t.setPortState i 0).setPort i Port.fresh else t)
    (s.reroute (· == .queued))

/-- The request an answer belongs to leaves the list of unanswered ones. -/
def State.unsend (s : State) (rid : Nat) : State :=
  ({ s with fabric := { s.fabric with sent := s.fabric.sent.filter (·.rid != rid) } } : State).settlePorts

/-- An answer can come the way its request went: from this device itself, or over a port that is still in RUN (R377, R384). -/
def State.answerable (s : State) (r : OutReq) : Bool :=
  match r.way with
  | .loopback => true
  | .port i => s.portState i == 2
  | .queued | .lost => false

/-- An agent that waits for the answer to a request, in view and running again; none where it does not wait for it. -/
def State.answered (s : State) (a : Agent) (rid : Nat) : Option State :=
  let t := s.focusOn a
  if t.hart.run = .remote rid then some (t.onFocus fun h => { h with run := .running }) else none

/-- A remote load's bytes arrive (R224): its E-word completes, with the bytes that the coroutine's own pending stores give (R109,
R215). -/
def State.vloadDone (s : State) (bs : List Byte) (bad : List Nat) : State :=
  match s.hart.blocks with
  | [] => s
  | b :: _ =>
    match (b.words[b.idx]?).bind fun w => decodeE w.toNat with
    | none => s
    | some i =>
      match shapeOf i with
      | none => s
      | some (_, w) =>
        let kind := match i with | .vldx _ => 2 | _ => 1
        let as := vecBytes (s.request b w kind)
        let mine := fun e : Nat × Nat => (s.ownByte (endpointOf b w) e.1 (some (bs.getD e.2 0, bad.contains e.2))).getD (0, false)
        s.complete true w.sh (s.writeV w.vd (etypeBits (etypeOf w.ty)) (remoteEls w (s.memElems b w) (as.zipIdx.map mine)))

/-- An S-word of the agent in view completes with the value of its answer. -/
def State.answerValue (s : State) (d : Nat) (v : Word) : State := s.result (Fin.ofNat 32 d) v

/-- A held full/empty operation of another endpoint sets its coroutine aside, or holds its hart (R86, R291). -/
def State.feHeldAt (s : State) (r : OutReq) (d : Nat) (ld : Bool) : State :=
  match s.hart.occ with
  | some (g, n) =>
    if s.canSwitch then
      let s : State := { s with fabric := { s.fabric with sent := s.fabric.sent.map fun k =>
        if k.rid == r.rid then { k with cont := .feCoro s.cid g n d ld } else k } }
      s.saveFull (.fe (!ld) (opBase r.op)) false
    else s.onFocus fun h => { h with run := .fe }
  | none => s.onFocus fun h => { h with run := .fe }

/-- A trap that a coroutine receives at its next strip boundary, or an agent that acted without one (R225, R251, R260). -/
def State.traceBack (s : State) (cid gid coid : Nat) (t : Trap) : State :=
  if gid ≥ 65536 then
    s.onHart (if cid ≥ 2048 then .fw (cid - 2048) else .hart cid coid) fun h => { h with traps := h.traps ++ [t] }
  else match s.coroAt cid gid coid with
  | none => s
  | some c => s.onCoro c gid coid fun k => { k with traps := k.traps ++ [t] }

/-- The fabric interface keeps a refused message (R96). Its refusal shows that the destination holds the allowance at zero (R37), but for
one refused only because an earlier message of its pair of cores has not entered (R92); the own EID's hold has been made where the message
arrived. DEDUCED (log entry 100). -/
def State.keepMsg (s : State) (k : KeptMsg) : State :=
  let earlier := s.fabric.kept.any (fun j => j.ep == k.ep && j.cid == k.cid && j.dcid == k.dcid && seqBefore j.msg.seq k.msg.seq)
    || s.fabric.sent.any fun r => r.ep == k.ep && r.cid == k.cid && match r.op with
        | .msg d m => d == k.dcid && seqBefore m.seq k.msg.seq
        | _ => false
  let f := { s.fabric with kept := s.fabric.kept ++ [k] }
  if k.ep = f.eid then
    let t : State := { s with fabric := f }
    if f.heldAt.contains k.ep then t else t.resendKept k.ep
  else if earlier then { s with fabric := f }
  else { s with fabric := { f.holdUnits k.ep with heldFor := if f.heldFor.contains k.ep then f.heldFor else f.heldFor ++ [k.ep] } }

/-- A message has entered, or was refused for good: messages kept behind it may follow (R96), stores queued behind it (R114), and those of the
device that were held behind one of a core's own (R95, R400). -/
def State.msgSettled (s : State) (r : OutReq) : State :=
  let t := s.resendKept r.ep
  let t := if (t.core r.cid).outq.isEmpty then t else t.later (.remoteStoreSend r.cid)
  if r.ep = s.fabric.eid then t.kickGenerated r.cid else t

/-- What an answer does at the source of its request. -/
def State.onAnswer (s : State) (r : OutReq) (p : Resp) : State :=
  let gone := s.unsend r.rid
  match r.cont with
  | .ratom a d dbl => match p, gone.answered a r.rid with
    | .value v, some t => t.answerValue d (if dbl then v else amoOld 32 (v.toNat % 2 ^ 32))
    | _, _ => s
  | .fe a d ld => match p with
    | .held => match s.answered a r.rid with | some t => t.feHeldAt r d ld | none => s
    | .value v =>
      let h := gone.hartOf a
      if h.run = .remote r.rid ∨ h.run = .fe then gone.onHart a fun h => h.feDone (if ld then d else 0) v else s
    | _ => s
  | .feCoro cid g n d ld => match p, (s.core cid).coro g n with
    | .value v, some k =>
      if k.running || k.met then s.retry (.remoteResponse r.rid p) else gone.feDone (.coro cid g n (if ld then d else 0)) v
    | .value _, none => gone
    | _, _ => s
  | .arrive a => match p, gone.answered a r.rid with
    | .ack, some t => t.stepPc.retire
    | .sync _ _, some t => t.swordTrap { cause := .syncUninit, val := opBase r.op }
    | _, _ => s
  | .sgen a d tok => match p, gone.answered a r.rid with
    | .sync v gen, some t =>
      if v then t.answerValue d (tokenOf (tokenEp tok) (tokenGran tok) gen)
      else t.swordTrap { cause := .syncUninit, val := tok }
    | _, _ => s
  | .await a i => match p, gone.answered a r.rid with
    | .sync v gen, some t => { t with fabric := { t.fabric with awaits := t.fabric.awaits ++ [(a, i, v, gen)] } }
    | _, _ => s
  | .vload a => match p, gone.answered a r.rid with
    | .data bs bad, some t => t.vloadDone bs bad
    | _, _ => s
  | .copy id row skip len => match p, gone.copy? id.toNat with
    | .data bs bad, some c => gone.copyStore c row skip (bs.take len) bad
    | .ack, some c => gone.copyLanded c row skip len
    | _, _ => gone
  | .contribution who id _ => match p with
    | .sync _ _ => (gone.reportUninit (opBase r.op) who).copyDone id
    | _ => gone.copyDone id
  | .store _ _ _ _ | .wake => gone
  | .msg cid g n => match p, r.op with
    | .held, .msg dcid m =>
      gone.keepMsg { ep := r.ep, cid := cid, gid := g, coid := n, dcid := dcid, msg := m }
    | _, _ => gone.msgSettled r
  | .register cid gran => match p with
    | .sync v gen =>
      if cid < 2048 then (gone.testTokens cid r.ep gran v gen).1 else gone.answerWaits (cid - 2048) r.ep gran v gen
    | _ => gone
  | .push i n =>
    match gone.pushes.find? (·.id == i) with
    | none => gone
    | some q => match p with
      | .held => ((gone.setPush { q with started := false }).kickExits).retry (.skinkWriteLand 0)
      | _ =>
        let left := q.els.drop n
        let gone := match p, gone.grids.find? fun g => g.part == q.part && g.gid == q.gid && g.key == q.key with
          | .sync _ _, some g => gone.reportUninit (g.wordToken r.ep (g.localOf q.blk) false q.step) (.core q.cid)
          | _, _ => gone
        let t := if left.isEmpty then gone.dropPush q else gone.setPush { q with els := left, begun := true }
        (t.kickExits).later (.skinkWriteLand 0)

/-- REMOTE_RESPONSE (R224): an answer arrives. -/
def execRemoteResponse (rid : Nat) (p : Resp) (s : State) : Host.Outcome State Fault Refusal :=
  match s.fabric.sent.find? (·.rid == rid) with
  | none => .next s
  | some r => .next (if s.answerable r then s.sourced (.remoteResponse rid p) (s.onAnswer r p) else s)

/-- REMOTE_ACKNOWLEDGEMENT (R225): the target acknowledges a request that returns nothing. -/
def execRemoteAcknowledgement (rid : Nat) (s : State) : Host.Outcome State Fault Refusal :=
  match s.fabric.sent.find? (·.rid == rid) with
  | none => .next s
  | some r => .next (if s.answerable r then s.onAnswer r .ack else s)

/-- A refused contribution that belongs to no copy: its source raises REMOTE_ACCESS, or, where it is no core, the firmware core
receives SYNC_FAULT (R399). DEDUCED (log entry 31): the event's argument is that of a word that does not translate. -/
def State.reportRefused (s : State) (tok : Word) (who : Contributor) (t : Trap) : State :=
  match who, contributorQuad who with
  | .core cid, _ => s.postAsync cid t
  | _, some q => s.postEvent q { code := 0x0B, arg := tok.toNat, arg2 := 2 }
  | _, _ => s

/-- REMOTE_NACK (R223 to R225, R251, R399): a refused request raises REMOTE_ACCESS at its instruction, at its coroutine's next
strip boundary, or aborts its copy. -/
def execRemoteNack (rid : Nat) (s : State) : Host.Outcome State Fault Refusal :=
  match s.fabric.sent.find? (·.rid == rid) with
  | none => .next s
  | some r =>
    if r.way ≠ .lost ∧ !s.answerable r then .next s else
    let gone := s.unsend rid
    let t : Trap := { cause := .remoteAccess, val := opBase r.op, val2 := word r.ep }
    match r.cont with
    | .ratom a _ _ | .arrive a | .sgen a _ _ | .await a _ =>
      match gone.answered a rid with
      | some u => .next (u.swordTrap t)
      | none => .next gone
    | .fe a _ _ =>
      let u := gone.focusOn a
      if u.hart.run = .remote rid ∨ u.hart.run = .fe then .next ((u.onFocus fun h => { h with run := .running }).swordTrap t)
      else .next gone
    | .feCoro cid g n _ _ => .next ((gone.traceBack cid g n t).ready cid g n)
    | .vload a =>
      match gone.answered a rid with
      | some u => match u.hart.blocks with
        | b :: _ => u.ewordTrap b t (b.words.getD b.idx 0)
        | [] => .next u
      | none => .next gone
    | .copy id row skip _ =>
      match gone.copy? id.toNat with
      | some c =>
        let k := c.row row
        .next (gone.abortCopy c .remoteAccess ((if c.p.sk = 2 then k.1 else k.2) + word skip))
      | none => .next gone
    | .contribution who id _ =>
      match gone.copy? id.toNat with
      | some c => .next (gone.abortCopy c .remoteAccess (granAddr (tokenGran (opBase r.op))))
      | none => .next (gone.reportRefused (opBase r.op) who t)
    | .store cid g n base => .next (gone.traceBack cid g n { t with val := base })
    | .msg cid g n =>
      let dst := match r.op with | .msg dcid _ => word (dcid * 2 ^ 32 + r.ep) | _ => 0
      .next ((gone.traceBack cid g n { t with val := dst }).msgSettled r)
    | .register cid gran =>
      if cid ≥ 2048 then .next (s.sourced (.remoteNack rid) (gone.refusedWaits (cid - 2048) r.ep gran)) else
      let mine := (gone.core cid).coros.filter fun k => !k.met && k.tokensOn r.ep gran != []
      .next (mine.foldl (fun u k => (u.traceBack cid k.gid k.coid t).ready cid k.gid k.coid) gone)
    | .wake => .next gone
    | .push i _ =>
      match gone.pushes.find? (·.id == i) with
      | none => .next gone
      | some q => .next (((gone.traceBack q.cid q.gid q.coid t).dropPush q).kickExits)

end Sys2Proof.Machine
end

