-- ==== Sys2Proof/Machine/VArith.lean ====
section
/-! DEFINITION. Vector arithmetic, shifts, logic and compare (R185 to R194): each element on its own -/

namespace Sys2Proof.Machine

/-- An elementwise E-word: for each active element, a result from the patterns of its operands (R185); `n` operands are
registers. -/
def State.each (s : State) (b : Block) (w : EWord) (n : Nat) (g : Nat → Nat → Nat → Flagged) : Except Stop Done := do
  let c := s.hart.ctx
  let width := etypeBits (etypeOf w.ty)
  let els := b.active c w
  let srcs := [(0, w.va.toNat, width)] ++ (if n ≥ 2 then bSrc w width else []) ++ (if n ≥ 3 then [(0, w.vc.toNat, width)] else [])
  let _ ← c.poisonRead (maskSrc w) (List.range b.vl)
  let _ ← c.poisonRead srcs els
  pure (s.writeV w.vd width (els.map fun i =>
    let r := g (elem (c.vreg w.va) width i) (b.operandB c w width i) (elem (c.vreg w.vc) width i)
    (i, r.1, r.2, false)))

/-- An arithmetic E-word (R190): class F on values with one rounding, class I on integers by the signedness of the type. -/
def State.arith (s : State) (b : Block) (w : EWord) (n : Nat) (f : EType → FpEnv → FVal → FVal → FVal → Flagged)
    (g : Nat → Bool → Int → Int → Int → Flagged) : Except Stop Done :=
  let t := etypeOf w.ty
  let v := s.eEnv b w
  let width := etypeBits t
  let int := fun x => intVal width (isSigned t) x
  s.each b w n fun x y z =>
    if isFloat t then f t v (fread t v.daz x) (fread t v.daz y) (fread t v.daz z)
    else g width (isSigned t) (int x) (int y) (int z)

/-- An integer result modulo 2^w (R63). -/
def wrapped (width : Nat) (z : Int) : Flagged := (patternOf width z, 0)

/-- An integer type has no such operation. -/
def noInt (width : Nat) (_ : Bool) (_ _ _ : Int) : Flagged := wrapped width 0

/-- A class F type has no such operation. -/
def noFloat (t : EType) (_ : FpEnv) (_ _ _ : FVal) : Flagged := (canonNan t, 0)

/-- VADD (R190): a + b. -/
def execVadd (w : EWord) (s : State) : Host.Outcome State Fault Refusal :=
  s.eword (.vadd w) fun b w => s.arith b w 2
    (fun t v a b _ => fadd t v a b)
    (fun k _ a b _ => wrapped k (a + b))

/-- VSUB (R190): a - b. -/
def execVsub (w : EWord) (s : State) : Host.Outcome State Fault Refusal :=
  s.eword (.vsub w) fun b w => s.arith b w 2
    (fun t v a b _ => fadd t v a b.neg)
    (fun k _ a b _ => wrapped k (a - b))

/-- VMUL (R190): a * b. -/
def execVmul (w : EWord) (s : State) : Host.Outcome State Fault Refusal :=
  s.eword (.vmul w) fun b w => s.arith b w 2
    (fun t v a b _ => fmul t v a b)
    (fun k _ a b _ => wrapped k (a * b))

/-- VFMA (R190): a * b + c with one rounding. -/
def execVfma (w : EWord) (s : State) : Host.Outcome State Fault Refusal :=
  s.eword (.vfma w) fun b w => s.arith b w 3
    (fun t v a b c => ffma t v a b c)
    (fun k _ a b c => wrapped k (a * b + c))

/-- VFMS (R190): a * b - c with one rounding. -/
def execVfms (w : EWord) (s : State) : Host.Outcome State Fault Refusal :=
  s.eword (.vfms w) fun b w => s.arith b w 3
    (fun t v a b c => ffma t v a b c.neg)
    (fun k _ a b c => wrapped k (a * b - c))

/-- VFNMA (R190): c - a * b with one rounding. -/
def execVfnma (w : EWord) (s : State) : Host.Outcome State Fault Refusal :=
  s.eword (.vfnma w) fun b w => s.arith b w 3
    (fun t v a b c => ffma t v a.neg b c)
    (fun k _ a b c => wrapped k (c - a * b))

/-- VDIV (R77, R190): a / b, correctly rounded. -/
def execVdiv (w : EWord) (s : State) : Host.Outcome State Fault Refusal :=
  s.eword (.vdiv w) fun b w => s.arith b w 2
    (fun t v a b _ => fdiv t v a b)
    (noInt)

/-- VSQRT (R77, R190): the square root, correctly rounded. -/
def execVsqrt (w : EWord) (s : State) : Host.Outcome State Fault Refusal :=
  s.eword (.vsqrt w) fun b w => s.arith b w 1
    (fun t v a _ _ => fsqrt t v a)
    (noInt)

/-- VRSQRT (R77): the reciprocal square root, correctly rounded. -/
def execVrsqrt (w : EWord) (s : State) : Host.Outcome State Fault Refusal :=
  s.eword (.vrsqrt w) fun b w => s.arith b w 1
    (fun t v a _ _ => frsqrt t v a)
    (noInt)

/-- VRCP (R77): the reciprocal, correctly rounded. -/
def execVrcp (w : EWord) (s : State) : Host.Outcome State Fault Refusal :=
  s.eword (.vrcp w) fun b w => s.arith b w 1
    (fun t v a _ _ => frcp t v a)
    (noInt)

/-- VEXP2 (R77): 2^a, correctly rounded. -/
def execVexp2 (w : EWord) (s : State) : Host.Outcome State Fault Refusal :=
  s.eword (.vexp2 w) fun b w => s.arith b w 1
    (fun t v a _ _ => fexp2 t v a)
    (noInt)

/-- VLOG2 (R77): log2 a, correctly rounded. -/
def execVlog2 (w : EWord) (s : State) : Host.Outcome State Fault Refusal :=
  s.eword (.vlog2 w) fun b w => s.arith b w 1
    (fun t v a _ _ => flog2 t v a)
    (noInt)

/-- VMULH (R190): the high half of the exact product. -/
def execVmulh (w : EWord) (s : State) : Host.Outcome State Fault Refusal :=
  s.eword (.vmulh w) fun b w => s.arith b w 2
    (noFloat)
    (fun k _ a b _ => wrapped k (a * b / 2 ^ k))

/-- VSADD (R190): a + b clamped to the range of the type, SAT if clamped. -/
def execVsadd (w : EWord) (s : State) : Host.Outcome State Fault Refusal :=
  s.eword (.vsadd w) fun b w => s.arith b w 2
    (noFloat)
    (fun k g a b _ => clamped k g (a + b))

/-- VSSUB (R190): a - b clamped to the range of the type, SAT if clamped. -/
def execVssub (w : EWord) (s : State) : Host.Outcome State Fault Refusal :=
  s.eword (.vssub w) fun b w => s.arith b w 2
    (noFloat)
    (fun k g a b _ => clamped k g (a - b))

/-- VMIN and VMAX of two patterns (R191). -/
def selectOf (t : EType) (daz largest : Bool) (x y : Nat) : Flagged :=
  if isFloat t then fselect t daz largest x y
  else
    let a := intVal (etypeBits t) (isSigned t) x
    let b := intVal (etypeBits t) (isSigned t) y
    (if decide (a < b) != largest then x else y, 0)

/-- VMIN (R191): the smaller operand. -/
def execVmin (w : EWord) (s : State) : Host.Outcome State Fault Refusal :=
  s.eword (.vmin w) fun b w => s.each b w 2 fun x y _ => selectOf (etypeOf w.ty) (s.eEnv b w).daz false x y

/-- VMAX (R191): the larger operand. -/
def execVmax (w : EWord) (s : State) : Host.Outcome State Fault Refusal :=
  s.eword (.vmax w) fun b w => s.each b w 2 fun x y _ => selectOf (etypeOf w.ty) (s.eEnv b w).daz true x y

/-- VABS and VNEG of a pattern (R191). -/
def signOf (t : EType) (daz negate : Bool) (x : Nat) : Flagged :=
  let k := etypeBits t
  if isFloat t then fsign t daz negate x
  else if negate then wrapped k (-(x : Int))
  else (if isSigned t then patternOf k (signedOf k x).natAbs else x, 0)

/-- VABS (R191). -/
def execVabs (w : EWord) (s : State) : Host.Outcome State Fault Refusal :=
  s.eword (.vabs w) fun b w => s.each b w 1 fun x _ _ => signOf (etypeOf w.ty) (s.eEnv b w).daz false x

/-- VNEG (R191). -/
def execVneg (w : EWord) (s : State) : Host.Outcome State Fault Refusal :=
  s.eword (.vneg w) fun b w => s.each b w 1 fun x _ _ => signOf (etypeOf w.ty) (s.eEnv b w).daz true x

/-- A shift (R192, R193): the amount is fn[5:0] under IMM, else the low log2 w bits of operand b. -/
def State.shift (s : State) (b : Block) (w : EWord) (g : Nat → Nat → Nat → Nat) : Except Stop Done :=
  let k := etypeBits (etypeOf w.ty)
  let imm := bit w.fn.toNat 6
  s.each b w (if imm then 1 else 2) fun x y _ => (g k x (if imm then bits w.fn.toNat 5 0 else y % k), 0)

/-- VSHL (R193). -/
def execVshl (w : EWord) (s : State) : Host.Outcome State Fault Refusal :=
  s.eword (.vshl w) fun b w => s.shift b w fun k x m => x * 2 ^ m % 2 ^ k

/-- VSHR (R193): a logical right shift. -/
def execVshr (w : EWord) (s : State) : Host.Outcome State Fault Refusal :=
  s.eword (.vshr w) fun b w => s.shift b w fun _ x m => x / 2 ^ m

/-- VSRA (R193): floor division of the signed reading, whatever the signedness of the type. -/
def execVsra (w : EWord) (s : State) : Host.Outcome State Fault Refusal :=
  s.eword (.vsra w) fun b w => s.shift b w fun k x m => patternOf k (signedOf k x / 2 ^ m)

/-- VAND (R193). -/
def execVand (w : EWord) (s : State) : Host.Outcome State Fault Refusal :=
  s.eword (.vand w) fun b w => s.each b w 2 fun x y _ => (x &&& y, 0)

/-- VOR (R193). -/
def execVor (w : EWord) (s : State) : Host.Outcome State Fault Refusal :=
  s.eword (.vor w) fun b w => s.each b w 2 fun x y _ => (x ||| y, 0)

/-- VXOR (R193). -/
def execVxor (w : EWord) (s : State) : Host.Outcome State Fault Refusal :=
  s.eword (.vxor w) fun b w => s.each b w 2 fun x y _ => (x ^^^ y, 0)

/-- VNOT (R193): the bitwise complement. -/
def execVnot (w : EWord) (s : State) : Host.Outcome State Fault Refusal :=
  s.eword (.vnot w) fun b w => s.each b w 1 fun x _ _ => (2 ^ etypeBits (etypeOf w.ty) - 1 - x, 0)

/-- VCLZ (R193): 0 bits above the highest 1 bit. -/
def execVclz (w : EWord) (s : State) : Host.Outcome State Fault Refusal :=
  s.eword (.vclz w) fun b w => s.each b w 1 fun x _ _ => (leadingZeros (etypeBits (etypeOf w.ty)) x, 0)

/-- VPOPC (R193): the number of 1 bits. -/
def execVpopc (w : EWord) (s : State) : Host.Outcome State Fault Refusal :=
  s.eword (.vpopc w) fun b w => s.each b w 1 fun x _ _ => (onesCount (etypeBits (etypeOf w.ty)) x, 0)

/-- The condition of a compare on two patterns (R194). -/
def compareOf (t : EType) (daz : Bool) (c x y : Nat) : Bool × Nat :=
  if isFloat t then fcompare c (fread t daz x) (fread t daz y)
  else
    let a := intVal (etypeBits t) (isSigned t) x
    let b := intVal (etypeBits t) (isSigned t) y
    (match c with
      | 0 => a == b
      | 1 => a != b
      | 2 => decide (a < b)
      | 3 => decide (a ≤ b)
      | 4 => decide (a > b)
      | _ => decide (a ≥ b), 0)

/-- VCMP (R194): kd[i] := A(i) cc B(i), with the tail cleared (R49). -/
def execVcmp (w : EWord) (s : State) : Host.Outcome State Fault Refusal :=
  s.eword (.vcmp w) fun b w => do
    let c := s.hart.ctx
    let t := etypeOf w.ty
    let width := etypeBits t
    let els := b.active c w
    let _ ← c.poisonRead (maskSrc w) (List.range b.vl)
    let _ ← c.poisonRead ([(0, w.va.toNat, width)] ++ bSrc w width) els
    if b.vl = 0 then pure { state := s }
    else pure (s.writeK w.vd.toNat b.vl width (els.map fun i =>
      let r := compareOf t (s.eEnv b w).daz w.fn.toNat (elem (c.vreg w.va) width i) (b.operandB c w width i)
      (i, flag r.1, r.2)))

end Sys2Proof.Machine
end

