-- ==== Sys2Proof/Machine/VReduce.lean ====
section
/-! DEFINITION. Reductions, scans, conversions and block scaling (R61, R68, R76, R79, R201 to R207) -/

namespace Sys2Proof.Machine

/-- The identity value of a reduction (R202); operations by RSTAT.OP: 0 and 3 sum, 1 and 4 max, 2 min. -/
def identityOf (op : Nat) (t : EType) : Nat :=
  let k := etypeBits t
  match op with
  | 1 | 4 => if isFloat t then withSign t true (infMag t) else if isSigned t then 2 ^ (k - 1) else 0
  | 2 => if isFloat t then infMag t else if isSigned t then 2 ^ (k - 1) - 1 else 2 ^ k - 1
  | _ => if isFloat t then withSign t true 0 else 0

/-- The combination of two patterns (R79, R202). -/
def combine (op : Nat) (t : EType) (v : FpEnv) (x y : Nat) : Flagged :=
  match op with
  | 1 | 4 => selectOf t v.daz true x y
  | 2 => selectOf t v.daz false x y
  | _ => if isFloat t then fadd t v (fread t v.daz x) (fread t v.daz y) else ((x + y) % 2 ^ etypeBits t, 0)

/-- A pattern that a reduction or scan passes on or takes in: as DAZ reads it (R75), a NaN as the canonical one, and a signalling
NaN raises NV (R67, R74). DESIGN CHOICE (log entry 61): R79 passes a lone operand unchanged and R67 lets no computing instruction
produce another NaN; the model gives the canonical one. -/
def leafOf (t : EType) (v : FpEnv) (x : Nat) : Flagged :=
  if isFloat t then
    match fdecode t x with
    | .nan s => (canonNan t, if s then nv else 0)
    | _ => (dazBits t v.daz x, 0)
  else (x, 0)

/-- An operand that is passed on, with the flags it brings. -/
def passOf (t : EType) (v : FpEnv) (a : Flagged) : Flagged := ((leafOf t v a.1).1, (leafOf t v a.1).2 ||| a.2)

/-- A combination with possibly empty operands: an empty one passes the other (R75, R79). -/
def combineOpt (op : Nat) (t : EType) (v : FpEnv) (x y : Option Flagged) : Option Flagged :=
  match x, y with
  | none, y => y.map (passOf t v)
  | x, none => x.map (passOf t v)
  | some a, some b =>
    let r := combine op t v a.1 b.1
    some (r.1, r.2 ||| a.2 ||| b.2)

/-- One level of the pairwise tree of R79. -/
def treeLevel (op : Nat) (t : EType) (v : FpEnv) : List (Option Flagged) → List (Option Flagged)
  | x :: y :: r => combineOpt op t v x y :: treeLevel op t v r
  | l => l

/-- The pairwise tree of R79 over 2^n entries at most. -/
def pairTree (op : Nat) (t : EType) (v : FpEnv) : Nat → List (Option Flagged) → Option Flagged
  | 0, l => l.headD none
  | n + 1, l => pairTree op t v n (treeLevel op t v l)

/-- A partial accumulator as an operand: the identity's bits are an empty one (R202). -/
def partialOf (op : Nat) (t : EType) (x : Nat) : Option Flagged := if x = identityOf op t then none else some (x, 0)

/-- One fold of a lane's partial with a group's result, or of a scan's carry with an element: a partial of the identity's bits is
empty (R79, R202, R203). -/
def foldPartial (op : Nat) (t : EType) (v : FpEnv) (p : Flagged) (g : Option Flagged) : Flagged :=
  match combineOpt op t v (partialOf op t p.1) g with
  | some r => (r.1, r.2 ||| p.2)
  | none => p

/-- RSTAT (R61). -/
def rstatOf (keep : Bool) (t : EType) (op pos : Nat) : Word :=
  word (flag keep * 2 ^ 63 + etypeCode t * 2 ^ 52 + op * 2 ^ 48 + pos % 2 ^ 16)

/-- A continued operation that does not fit its partials raises REDUCE_STATE, and poisoned partials raise POISON (R360; log entry
63); the state it starts from otherwise: the partials and POS (R202, R203). -/
def State.reduceStart (s : State) (w : EWord) (op : Nat) : Except Stop (List Nat × Nat) :=
  let c := s.hart.ctx
  let t := etypeOf w.ty
  if bit w.fn.toNat 1 && c.rstat.getLsbD 63 then
    if bits c.rstat.toNat 55 52 ≠ etypeCode t ∨ bits c.rstat.toNat 51 48 ≠ op then
      .error (.trap { cause := .reduceState, val := c.rstat })
    else
      match c.poison.find? fun r => r.kind == 6 with
      | some r => .error (.trap { cause := .poison, val := word (0xFF * 2 ^ 56 + 6 * 2 ^ 48 + r.num) })
      | none => .ok (c.racc.toList.map (·.toNat), bits c.rstat.toNat 15 0)
  else .ok (List.replicate s.lanes (identityOf op t), 0)

/-- Store the partials, clean, and RSTAT (R202, R203). -/
def State.reduceEnd (s : State) (w : EWord) (op pos : Nat) (parts : List Nat) : State :=
  s.setCtx { s.hart.ctx with
    racc := Vector.ofFn fun i : Fin 32 => word (parts.getD i.val 0)
    rstat := rstatOf (bit w.fn.toNat 0) (etypeOf w.ty) op (pos + 1)
    poison := s.hart.ctx.poison.filter fun r => r.kind != 6 }

/-- The partial of a lane as a register word of the model's own kind 6 (R355; log entry 63). -/
def raccWord (j : Nat) : RegWord := { kind := 6, num := j, word := 0 }

/-- A reduction (R79, R202): a lane folds its groups that hold an active element, and no other. -/
def State.reduce (s : State) (b : Block) (w : EWord) (op : Nat) : Except Stop Done := do
  let c := s.hart.ctx
  let t := etypeOf w.ty
  let width := etypeBits t
  let v := s.eEnv b w
  if b.vl = 0 then pure (s.writeV w.vd width [(0, identityOf op t, 0, false)])
  else
    let (start, pos) ← s.reduceStart w op
    let sel := bit w.fn.toNat 2
    let els := (List.range b.vl).filter fun i => !sel || bit (c.kreg w.vc.toNat) i
    let _ ← if sel then c.poisonRead [(1, w.vc.toNat, 1)] (List.range b.vl) else pure ()
    let _ ← c.poisonRead [(0, w.va.toNat, width)] els
    let per := 256 / width
    let groupOf := fun g => pairTree op t v 6 ((List.range per).map fun e =>
      let i := g * per + e
      if els.contains i then some (leafOf t v (elem (c.vreg w.va) width i)) else none)
    let groups := (List.range ((b.vl + per - 1) / per)).map groupOf
    let parts := (List.range s.lanes).map fun j =>
      ((List.range groups.length).filter fun g => g % s.lanes == j && (groups.getD g none).isSome).foldl
        (fun p g => foldPartial op t v p (groups.getD g none)) (start.getD j 0, 0)
    let total := (pairTree op t v 5 (parts.map fun p => partialOf op t p.1)).getD (identityOf op t, 0)
    let u := s.reduceEnd w op pos (parts.map (·.1))
    let d := u.writeV w.vd width [(0, total.1, total.2, false)]
    let words := groupWords 0 w.vd.toNat 0
    let lane := fun j => ({ lane := j, words := words ++ [raccWord j], flags := (parts.getD j (0, 0)).2 } : Group)
    pure { d with groups := d.groups ++ (List.range s.lanes).map lane }

/-- A scan (R79, R203). With no active element it raises no fault (R49), so partials of another operation then stay as they are. -/
def State.scan (s : State) (b : Block) (w : EWord) (op : Nat) : Except Stop Done := do
  let c := s.hart.ctx
  let t := etypeOf w.ty
  let width := etypeBits t
  let v := s.eEnv b w
  let els := b.active c w
  if b.vl = 0 then pure { state := s }
  else if els.isEmpty && (s.reduceStart w op).toOption.isNone then pure { state := s }
  else
    let (start, pos) ← s.reduceStart w op
    let _ ← c.poisonRead (maskSrc w) (List.range b.vl)
    let _ ← c.poisonRead [(0, w.va.toNat, width)] els
    let go := els.foldl (fun (acc : Nat × List (Nat × Nat × Nat × Bool)) i =>
      let r := foldPartial op t v (acc.1, 0) (some (leafOf t v (elem (c.vreg w.va) width i)))
      (r.1, acc.2 ++ [(i, r.1, r.2, false)])) (start.headD 0, [])
    let u := s.reduceEnd w op pos ((List.range s.lanes).map fun j => if j = 0 then go.1 else identityOf op t)
    let d := u.writeV w.vd width go.2
    pure { d with groups := d.groups ++ [{ lane := 0, words := [raccWord 0], flags := 0 }] }

/-- VREDSUM (R202). -/
def execVredsum (w : EWord) (s : State) : Host.Outcome State Fault Refusal := s.eword (.vredsum w) fun b w => s.reduce b w 0
/-- VREDMAX (R202). -/
def execVredmax (w : EWord) (s : State) : Host.Outcome State Fault Refusal := s.eword (.vredmax w) fun b w => s.reduce b w 1
/-- VREDMIN (R202). -/
def execVredmin (w : EWord) (s : State) : Host.Outcome State Fault Refusal := s.eword (.vredmin w) fun b w => s.reduce b w 2
/-- VSCAN.ADD (R203). -/
def execVscanAdd (w : EWord) (s : State) : Host.Outcome State Fault Refusal := s.eword (.vscanAdd w) fun b w => s.scan b w 3
/-- VSCAN.MAX (R203). -/
def execVscanMax (w : EWord) (s : State) : Host.Outcome State Fault Refusal := s.eword (.vscanMax w) fun b w => s.scan b w 4

/-- A conversion of every active element (R206, R207). -/
def State.convertV (s : State) (b : Block) (w : EWord) (scales : Bool) (g : EType → EType → FpEnv → Nat → Nat → Flagged) :
    Except Stop Done := do
  let c := s.hart.ctx
  let src := etypeOf (BitVec.ofNat 4 w.fn.toNat)
  let dst := etypeOf w.ty
  let els := b.active c w
  let _ ← c.poisonRead (maskSrc w) (List.range b.vl)
  let _ ← c.poisonRead [(0, w.va.toNat, etypeBits src)] els
  let _ ← if scales then c.poisonRead [(0, w.vb.toNat, 8)] ((els.map (· / 32)).dedup) else pure ()
  pure (s.writeV w.vd (etypeBits dst) (els.map fun i =>
    let v := if srEligible src dst then s.eEnvSr b w i else s.eEnv b w
    let r := g src dst v (elem (c.vreg w.va) (etypeBits src) i) (elem (c.vreg w.vb) 8 (i / 32))
    (i, r.1, r.2, false)))

/-- VCVT (R206). -/
def execVcvt (w : EWord) (s : State) : Host.Outcome State Fault Refusal :=
  s.eword (.vcvt w) fun b w => s.convertV b w false fun src dst v x _ => convert src dst v (bit w.fn.toNat 4) x

/-- A value times 2^k. -/
def FVal.scale (a : FVal) (k : Int) : FVal :=
  match a with
  | .fin n m e => .fin n m (e + k)
  | a => a

/-- VSCALE of one element with its scale byte (R68, R207). -/
def scaleOf (src dst : EType) (v : FpEnv) (satur : Bool) (x sc : Nat) : Flagged :=
  let a := fread src v.daz x
  if smallFloat src then
    if sc = 0xFF then (canonNan dst, 0) else fconvVal dst v false false (a.scale (sc - 127))
  else
    let n := if a.signals then nv else 0
    if sc = 0xFF then
      let r := fconvVal dst v false false (.nan false)
      (r.1, r.2 ||| n)
    else fconvVal dst v satur false (a.scale (127 - sc))

/-- VSCALE (R207). -/
def execVscale (w : EWord) (s : State) : Host.Outcome State Fault Refusal :=
  s.eword (.vscale w) fun b w => s.convertV b w true fun src dst v x sc => scaleOf src dst v (bit w.fn.toNat 4) x sc

end Sys2Proof.Machine
end

