-- ==== Sys2Proof/Machine/Matrix.lean ====
section
/-! DEFINITION. The matrix unit: tiles, the B latch, outer products, tile memory, the ring and slices
(R68, R78, R80, R229 to R243). -/

namespace Sys2Proof.Machine

/-! ### Tiles and the latch -/

/-- Replace one w-bit element of an image. -/
def setElem (x w i v : Nat) : Nat := x - elem x w i * 2 ^ (w * i) + v % 2 ^ w * 2 ^ (w * i)

/-- The rows 0 to TL - 1 of the tile window (R231). -/
def Block.rows (b : Block) : List Nat := List.range b.tl

/-- The place of tile element (row, col) among the elements of its width (R229). -/
def tileIdx (w : EWord) (row col : Nat) : Nat := row * colLimit w + col

/-- The width of a tile element (R229). -/
def tileBits (w : EWord) : Nat := if etypeOf w.ty = .f64 then 64 else 32

/-- The rows of the latch share for an operand type (R240). -/
def State.latchRows (s : State) (t : EType) : Nat := s.rows * depthOf t

/-- The place of latch element (q, j) (R237, R240). -/
def latchIdx (w : EWord) (q j : Nat) : Nat := q * colLimit w + j

/-- Groups of a tile's elements: rows 2l and 2l + 1 lie on lane l (R229). -/
def State.tileGroups (s : State) (td width : Nat) (els : List (Nat × Nat)) : List Group :=
  groupsOf width (fun g => g / 16 % s.lanes) (groupWords 2 td) els

/-- Write the listed elements of a tile, each with its value, flags and poison. -/
def State.writeT (s : State) (td : BitVec 6) (width : Nat) (els : List (Nat × Nat × Nat × Bool)) : Done :=
  let x := els.foldl (fun x e => setElem x width e.1 e.2.1) (s.hart.ctx.treg td.toNat)
  let c := (s.hart.ctx.setT td.toNat x).repoison 2 td.toNat width (els.map fun e => (e.1, e.2.2.2))
  { state := s.setCtx c, groups := s.tileGroups td.toNat width (els.map fun e => (e.1, e.2.2.1)), clearV := false }

/-- A matrix E-word other than MSTART and MSTOP (R230): MATOFF while matrix mode is off, then its effect. DEDUCED (log entry 90): MATOFF here,
and MAT_RING of MROT, are raised at VL = 0 and with no active column too, since R230 and R241 say it of every such word, though R49 lets no
fault arise there; MATOFF comes first where both hold. -/
def State.matrix (s : State) (i : Instr) (f : Block → EWord → Except Stop Done) : Host.Outcome State Fault Refusal :=
  s.eword i fun b w => if !s.hart.ctx.m then .error (.trap { cause := .matoff }) else f b w

/-- An E-word over the tile window (R231): with an empty window it has no effect. -/
def State.windowed (s : State) (i : Instr) (f : Block → EWord → List Nat → Except Stop Done) :
    Host.Outcome State Fault Refusal :=
  s.matrix i fun b w =>
    let cols := b.active s.hart.ctx w
    if b.tl = 0 ∨ cols = [] then .ok { state := s, clearV := false }
    else do
      let _ ← s.hart.ctx.poisonRead (maskSrc w) (List.range b.vl)
      f b w cols

/-- The positions (row, column) of the window, in row order (R234). -/
def Block.window (b : Block) (cols : List Nat) : List (Nat × Nat) := b.rows.flatMap fun i => cols.map fun j => (i, j)

/-- POISON for the first listed element of a tile or the latch with a poisoned word (R360): kind, number, width, place and
the index reported. -/
def Ctx.matPoison (c : Ctx) (kind num width : Nat) (els : List (Nat × Nat)) : Except Stop Unit :=
  if c.poison.isEmpty then .ok ()
  else
    match els.find? fun e => c.poisoned kind num width e.1 with
    | none => .ok ()
    | some e => .error (.trap { cause := .poison, val := word (0xFF * 2 ^ 56 + kind * 2 ^ 48 + num), val2 := word e.2 })

/-- The address base and row stride of a matrix E-word (R237): the snapshot entries of BASE and of vb. -/
def matAddr (b : Block) (w : EWord) (row off : Nat) : Nat :=
  (word (b.entry (bits w.fn.toNat 12 9)) + word row * word (b.scalar w) + word off).toNat

/-! ### Memory operands -/

/-- The bytes at places as the hart reads them, with their poison (R109, R360). -/
def State.bytesSeen (s : State) (p : Spot) : Nat × Bool :=
  (ofBytes (p.locs.map s.seen), p.locs.any s.seenBad)

/-- The scratchpad bytes of a place, as a lease names them (R233). -/
def leaseOf (p : Spot) : List (Nat × Nat) :=
  p.locs.filterMap fun l => match l with | .spad c o => some (c, o) | _ => none

/-- The places of an A operand (R237): a scratchpad address in the self window or in the gang window of the own core; any
other faults with MAT_SOURCE, after WINDOW_STRADDLE, ADDR_HOLE and ADDR_PROT. -/
def State.matSource (s : State) (va n row col : Nat) : Except Trap Spot :=
  let v := s.view
  let cores := match v.gang with | some g => g.cores | none => []
  let r := regionOf cores.length va
  let own := match r with
    | .self => true
    | .gang g => cores[g]? == s.cid?
    | _ => false
  let bad : Trap := { cause := .matSource, val := word va }
  if r = .paged ∧ regionOf cores.length (va + (n - 1)) = .paged then .error bad
  else
    match s.locate v va n 1 false with
    | .error t => .error { t with val2 := word (row * 64 + col) }
    | .ok p => if own then .ok p else .error bad

/-- Read the listed runs of A bytes, each with its row, the column to report, its address and its length, in order, once the coroutine's own
stores to them have landed (R106); then POISON for the first poisoned one (R234, R237, R360). DESIGN CHOICE (log entry 106): R234 defines no
column of A; OPA and OPS report the position K. -/
def State.readA (s : State) (l : List (Nat × Nat × Nat × Nat)) : Except Stop (List Nat × List (Nat × Nat)) := do
  let ps ← l.mapM fun e => lift (s.matSource e.2.2.1 e.2.2.2 e.1 e.2.1)
  let _ ← lift (s.afterLoops (ps.flatMap (·.locs)))
  let vs := ps.map s.bytesSeen
  match (l.zip vs).find? fun e => e.2.2 with
  | some (e, _) =>
    .error (.trap { cause := .poison, val := word (e.2.2.1 / 8 * 8), val2 := word (e.1 * 64 + e.2.1) })
  | none => pure (vs.map (·.1), ps.flatMap leaseOf)

/-! ### Outer products -/

/-- Infinities of both signs stand among the values. -/
def infClash (l : List FVal) : Bool := l.contains (.inf false) && l.contains (.inf true)

/-- acc + the terms with one rounding (R78): the order of its special values, then the exact sum. DESIGN CHOICE (log entry 89): a sum of
exact zeros of both signs takes the sign that the sum of two zeros of both signs has (-0 under RDN, else +0), acc and the products taken
together; the spec gives the zero of such a sum no sign. -/
def opaFloat (t : EType) (v : FpEnv) (acc : FVal) (pairs : List (FVal × FVal)) (subtract : Bool) : Flagged :=
  let prods := pairs.map fun p => fprod p.1 p.2
  let all := acc :: pairs.flatMap fun p => [p.1, p.2]
  let bad := pairs.any fun p => !p.1.isNan && !p.2.isNan && (fprod p.1 p.2).isNone
  let terms := acc :: prods.filterMap fun p => p.map fun x => if subtract then x.neg else x
  let terms := terms.filter fun x => !x.isNan
  let clash := infClash terms
  if all.any FVal.isNan || bad || clash then
    (canonNan t, if bad || clash || all.any FVal.signals then nv else 0)
  else
    match terms.find? fun x => match x with | .inf _ => true | _ => false with
    | some (.inf n) => (withSign t n (infMag t), 0)
    | _ =>
      let lo := terms.foldl (fun lo x => match x with | .fin _ m e => if m = 0 then lo else min lo e | _ => lo) (0 : Int)
      let z := terms.foldl (fun z x => match x with | .fin n m e => z + scaled n m (if m = 0 then lo else e) lo | _ => z) (0 : Int)
      let negs := terms.all FVal.isNeg
      let poss := terms.all fun x => !x.isNeg
      if z = 0 then (withSign t (if negs then true else if poss then false else v.rm == 2) 0, 0)
      else roundFin t v false false (decide (z < 0)) z.natAbs lo

/-- The accumulator format of an operand type (R78). -/
def accOf (t : EType) : EType := if t = .f64 then .f64 else if isFloat t then .f32 else .i32

/-- An operand value under an MX scale (R68). -/
def mxScaled (mx : Bool) (x : FVal) (sc : Nat) : FVal :=
  if !mx then x else if sc = 0xFF then .nan false else x.scale (sc - 127)

/-- One accumulator element (R78, R237): its bits, and the pairs of operand patterns with their scales. -/
def opaElem (t : EType) (v : FpEnv) (mx satur subtract : Bool) (acc : Nat) (ps : List ((Nat × Nat) × (Nat × Nat))) : Flagged :=
  if isFloat t then
    opaFloat (accOf t) v (fread (accOf t) v.daz acc)
      (ps.map fun p => (mxScaled mx (fread t v.daz p.1.1) p.1.2, mxScaled mx (fread t v.daz p.2.1) p.2.2)) subtract
  else
    let k := etypeBits t
    let sum := (ps.map fun p => intVal k (isSigned t) p.1.1 * intVal k (isSigned t) p.2.1).sum
    let x := signedOf 32 acc + if subtract then -sum else sum
    if satur then clamped 32 true x else (patternOf 32 x, 0)

/-- The checks of the register sources of an outer product: the latch rows, the accumulator and the MX scales (R360). -/
def State.opaSources (s : State) (b : Block) (w : EWord) (cols qs : List Nat) (per : Nat) : Except Stop Unit := do
  let c := s.hart.ctx
  let t := etypeOf w.ty
  let _ ← c.matPoison 3 0 (etypeBits t) (qs.flatMap fun q => cols.map fun j => (latchIdx w q j, q * 64 + j))
  let _ ← c.matPoison 2 w.vd.toNat (tileBits w) ((b.window cols).map fun e => (tileIdx w e.1 e.2, e.1 * 64 + e.2))
  if bit w.fn.toNat 2 && isFloat t then
    let _ ← c.poisonRead [(0, w.va.toNat, 8 * per)] b.rows
    c.poisonRead [(0, w.vc.toNat, 8 * per)] cols
  else pure ()

/-- OPA and OPS (R237). -/
def State.outer (s : State) (b : Block) (w : EWord) (cols : List Nat) (subtract : Bool) : Except Stop Done := do
  let c := s.hart.ctx
  let t := etypeOf w.ty
  let k := etypeBits t
  let d := depthOf t
  let p := bits w.fn.toNat 8 3
  let off := fun q => (p * d + q) * k / 8
  let runs := b.rows.flatMap fun i => (List.range d).map fun q => (i, p * d + q, matAddr b w i (off q), max 1 (k / 8))
  let (as, leases) ← s.readA runs
  let _ ← s.opaSources b w cols ((List.range d).map fun q => p * d + q) 1
  let nib := fun (kp x : Nat) => if k = 4 then (if kp % 2 = 0 then x % 16 else x / 16) else x
  let mx := bit w.fn.toNat 2
  let env := s.eEnv b w
  let els := (b.window cols).map fun (i, j) =>
    let ps := (List.range d).map fun q =>
      ((nib (p * d + q) (as.getD (i * d + q) 0), elem (c.vreg w.va) 8 i),
       (elem c.bl k (latchIdx w (p * d + q) j), elem (c.vreg w.vc) 8 j))
    let x := opaElem t env mx mx subtract (elem (c.treg w.vd.toNat) (tileBits w) (tileIdx w i j)) ps
    (tileIdx w i j, x.1, x.2, false)
  pure { s.writeT w.vd (tileBits w) els with leases := leases }

/-- OPA (R237). -/
def execOpa (w : EWord) (s : State) : Host.Outcome State Fault Refusal := s.windowed (.opa w) fun b w cols => s.outer b w cols false

/-- OPS (R237). -/
def execOps (w : EWord) (s : State) : Host.Outcome State Fault Refusal := s.windowed (.ops w) fun b w cols => s.outer b w cols true

/-- The values of a group that OPA.SP names by NSEL (R235). -/
def sparseN (w : EWord) : Nat := match bits w.fn.toNat 1 0 with | 0 => 12 | 1 => 16 | _ => 24

/-- OPA.SP (R80, R238). DESIGN CHOICE (log entry 106): STVAL2 of a fault at a read of A is 0 for the metadata word and the rank of the value
among those present else. -/
def execOpaSp (w : EWord) (s : State) : Host.Outcome State Fault Refusal :=
  s.windowed (.opaSp w) fun b w cols => do
    let c := s.hart.ctx
    let t := etypeOf w.ty
    let k := etypeBits t
    let h := bits w.fn.toNat 8 3
    let n := sparseN w
    let size := 8 + 8 * ((n * k / 8 + 7) / 8)
    let valOff := fun r => 8 + r * k / 8
    let runs := b.rows.flatMap fun i =>
      (i, 0, matAddr b w i (h * size), 8) ::
        (List.range n).map fun r => (i, r, matAddr b w i (h * size + valOff r), max 1 (k / 8))
    let (as, leases) ← s.readA runs
    let metaOf := fun i => as.getD (i * (n + 1)) 0
    match b.rows.find? fun i => (List.range 48).countP (bit (metaOf i)) != n || metaOf i / 2 ^ 48 != 0 with
    | some i => .error (.trap { cause := .sparseMeta, val := word i, val2 := word h })
    | none =>
      let _ ← s.opaSources b w cols ((List.range 48).map (48 * h + ·)) 2
      let mx := bit w.fn.toNat 2
      let env := s.eEnv b w
      let nib := fun (r x : Nat) => if k = 4 then (if r % 2 = 0 then x % 16 else x / 16) else x
      let second := fun q => flag (decide ((48 * h + q) / 32 ≠ 48 * h / 32))
      let els := (b.window cols).map fun (i, j) =>
        let present := (List.range 48).filter (bit (metaOf i))
        let ps := (List.range n).map fun r =>
          let q := present.getD r 0
          ((nib r (as.getD (i * (n + 1) + 1 + r) 0), elem (c.vreg w.va) 8 (2 * i + second q)),
           (elem c.bl k (latchIdx w (48 * h + q) j), elem (c.vreg w.vc) 8 (2 * j + second q)))
        let x := opaElem t env mx mx false (elem (c.treg w.vd.toNat) 32 (tileIdx w i j)) ps
        (tileIdx w i j, x.1, x.2, false)
      pure { s.writeT w.vd 32 els with leases := leases }

/-! ### Matrix mode and MZERO -/

/-- MSTART (R230, R236): zero tiles and latch and matrix mode on; no effect while it is on. -/
def execMstart (w : EWord) (s : State) : Host.Outcome State Fault Refusal :=
  s.eword (.mstart w) fun _ _ =>
    let c := s.hart.ctx
    .ok { state := if c.m then s else s.setCtx { c with m := true, t := Vector.replicate 4 0, bl := 0,
                                                        poison := c.poison.filter fun r => r.kind != 2 && r.kind != 3 }
          clearV := false }

/-- MSTOP (R230, R236): matrix mode off; tiles and latch are discarded. -/
def execMstop (w : EWord) (s : State) : Host.Outcome State Fault Refusal :=
  s.eword (.mstop w) fun _ _ =>
    let c := s.hart.ctx
    .ok { state := if c.m then s.setCtx { c with m := false, t := Vector.replicate 4 0, bl := 0,
                                                 poison := c.poison.filter fun r => r.kind != 2 && r.kind != 3 } else s
          clearV := false }

/-- MZERO (R236): every element of the window is zero. -/
def execMzero (w : EWord) (s : State) : Host.Outcome State Fault Refusal :=
  s.windowed (.mzero w) fun b w cols => .ok (s.writeT w.vd 32 ((b.window cols).map fun e => (e.1 * 64 + e.2, 0, 0, false)))

/-! ### Tile memory -/

/-- Read the elements at the listed positions, in order, with tier notices (R97, R234): place, value, flags and poison. -/
def State.matLoad (s : State) (n : Nat) (addr : Nat × Nat → Nat) (idx : Nat × Nat → Nat) :
    List (Nat × Nat) → Except Stop (State × List (Nat × Nat × Nat × Bool) × List (Nat × Nat))
  | [] => .ok (s, [], [])
  | e :: r =>
    match s.elemAccess (addr e) n (e.1 * 64 + e.2) false with
    | .error t => .error (.trap t)
    | .ok (t, p) => do
      let v := t.bytesSeen p
      let (u, l, ls) ← t.matLoad n addr idx r
      pure (u, (idx e, v.1, 0, v.2) :: l, leaseOf p ++ ls)

/-- MLD (R239): the window's elements come from memory unchanged. -/
def execMld (w : EWord) (s : State) : Host.Outcome State Fault Refusal :=
  s.windowed (.mld w) fun b w cols => do
    let n := tileBits w / 8
    let (t, l, ls) ← s.matLoad n (fun e => matAddr b w e.1 (e.2 * n)) (fun e => tileIdx w e.1 e.2) (b.window cols)
    pure { t.writeT w.vd (tileBits w) l with leases := ls }

/-- The pending stores of MST (R219, R239), in row and then column order; each carries its column as its index. -/
def State.matStore (s : State) (b : Block) (w : EWord) : List (Nat × Nat) → Except Stop (State × List (Nat × Pend))
  | [] => .ok (s, [])
  | e :: r =>
    let n := tileBits w / 8
    let a := matAddr b w e.1 (e.2 * n)
    match s.elemAccess a n (e.1 * 64 + e.2) true with
    | .error t => .error (.trap t)
    | .ok (t, p) => do
      let c := s.hart.ctx
      let x := elem (c.treg w.va.toNat) (tileBits w) (tileIdx w e.1 e.2)
      let q : Pend := { idx := e.2, addr := word a, bytes := (p.locs.zip (bytesOf n x)).map fun z => (z.1, z.2.toNat, 255),
                        lines := p.lines, remote := none, poisoned := c.poisoned 2 w.va.toNat (tileBits w) (tileIdx w e.1 e.2), whole := [],
                        tiers := p.tiers }
      let (u, l) ← t.matStore b w r
      pure (u, (e.1, q) :: l)

/-- MST (R239): the window's elements become pending stores. -/
def execMst (w : EWord) (s : State) : Host.Outcome State Fault Refusal :=
  s.windowed (.mst w) fun b w cols => do
    let (t, l) ← s.matStore b w (b.window cols)
    let n := s.hart.pend.length
    let groups := ((l.map fun e => e.1).dedup).map fun i =>
      ({ lane := i / 2 % s.lanes, flags := 0,
         words := (l.zipIdx.filter fun e => e.1.1 == i).map fun e => { kind := 5, num := e.1.2.idx, word := n + e.2 } } : Group)
    pure { state := t.addPend (endWords (l.map (·.2))), groups := groups, clearV := false }

/-- MLATCH (R240): every latch row takes its active columns from memory unchanged. -/
def execMlatch (w : EWord) (s : State) : Host.Outcome State Fault Refusal :=
  s.matrix (.mlatch w) fun b w => do
    let cols := b.active s.hart.ctx w
    if cols = [] then pure { state := s, clearV := false }
    else
      let _ ← s.hart.ctx.poisonRead (maskSrc w) (List.range b.vl)
      let t := etypeOf w.ty
      let k := etypeBits t
      let all := (List.range (s.latchRows t)).flatMap fun q => cols.map fun j => (q, j)
      let (u, l, ls) ← s.matLoad (max 1 (k / 8)) (fun e => matAddr b w e.1 (e.2 * k / 8)) (fun e => latchIdx w e.1 e.2) all
      let val := fun (e : Nat × Nat × Nat × Bool) => if k = 4 then (if e.1 % 2 = 0 then e.2.1 % 16 else e.2.1 / 16) else e.2.1
      let c := u.hart.ctx
      let x := l.foldl (fun x e => setElem x k e.1 (val e)) c.bl
      let c := ({ c with bl := x } : Ctx).repoison 3 0 k (l.map fun e => (e.1, e.2.2.2))
      let perRow := colLimit w * k / 256
      pure { state := u.setCtx c, groups := groupsOf k (fun g => g / max 1 perRow % s.lanes) (groupWords 3 0) (l.map fun e => (e.1, 0)),
             leases := ls, clearV := false }

/-! ### The ring -/

/-- The harts that an exchange joins: hart 0 of the 8 cores of a cluster, by position (R10, R241). -/
def ringOf (cid : Nat) : List Agent := (List.range 8).map fun p => .hart (cid / 8 * 8 + p) 0

/-- MROT may wait at the ring (R241): one hart a core, a gang with the matrix ring that holds the cluster, an open strip. -/
def State.ringOk (s : State) : Bool :=
  match s.cid?, s.view.gang with
  | some cid, some g =>
    (s.core cid).kc == 0 && g.mring && (List.range 8).all (fun p => g.cores.contains (cid / 8 * 8 + p))
    && s.hart.ctx.strip.isSome
  | _, _ => false

/-- A hart is past an MROT with the latch it received. -/
def Hart.rotated (h : Hart) (x : Nat) (ps : List RegWord) : Hart :=
  { h with
    run := .running
    blocks := match h.blocks with
      | b :: r => { b with idx := b.idx + 1 } :: r
      | [] => []
    ctx := { h.ctx with
      bl := x, eCount := h.ctx.eCount + flag (match h.blocks with | b :: _ => b.user | [] => false)
      poison := h.ctx.poison.filter (·.kind != 3) ++ ps } }

/-- THE EXCHANGE (R241): the latch of position p becomes the one that position p + 7 held, and the eight MROTs complete. -/
def State.rotate (s : State) (cid : Nat) : State :=
  let old := (ringOf cid).map fun a => (s.hartOf a).ctx
  (List.range 8).foldl (fun t p =>
    match old[(p + 7) % 8]? with
    | some c => t.onHart (.hart (cid / 8 * 8 + p) 0) fun h => h.rotated c.bl (c.poison.filter (·.kind == 3))
    | none => t) s

/-- MROT (R241): it waits at the ring until the eight cores of the cluster do, and then the latches move. -/
def execMrot (w : EWord) (s : State) : Host.Outcome State Fault Refusal :=
  s.matrix (.mrot w) fun _ _ =>
    if !s.ringOk then .error (.trap { cause := .matRing })
    else
      let t := s.onFocus fun h => { h with run := .ring }
      let all := (ringOf s.cid).all fun a => (t.hartOf a).run == .ring
      .ok { state := if all then t.rotate s.cid else t, stay := true, clearV := false }

/-! ### Slices and conversions -/

/-- The index of a slice: IDX, or the snapshot value under xs (R242). -/
def sliceIdx (b : Block) (w : EWord) : Nat := if w.xs then b.scalar w else bits w.fn.toNat 5 0

/-- The limit of a slice's index (R242). -/
def State.sliceLimit (s : State) (w : EWord) : Nat := if bit w.fn.toNat 6 then colLimit w else s.rows

/-- The place of element e of a slice, with its row and column. -/
def slicePos (b : Block) (w : EWord) (e : Nat) : Nat × Nat :=
  if bit w.fn.toNat 6 then (e, sliceIdx b w) else (sliceIdx b w, e)

/-- MMOV.V (R242): a slice of a tile into vd; a snapshot index past the limit writes zeros. -/
def execMmovV (w : EWord) (s : State) : Host.Outcome State Fault Refusal :=
  s.matrix (.mmovV w) fun b w => do
    let c := s.hart.ctx
    let els := b.active c w
    let _ ← c.poisonRead (maskSrc w) (List.range b.vl)
    let ok := decide (sliceIdx b w < s.sliceLimit w)
    let k := tileBits w
    let d := s.writeV w.vd k (els.map fun e =>
      let i := tileIdx w (slicePos b w e).1 (slicePos b w e).2
      (e, if ok then elem (c.treg w.va.toNat) k i else 0, 0, ok && c.poisoned 2 w.va.toNat k i))
    let lane := fun e => if ok then (slicePos b w e).1 / 2 % s.lanes else 0
    let groups := ((els.map lane).dedup).map fun l =>
      ({ lane := l, flags := 0,
         words := ((els.filter fun e => lane e == l).flatMap fun e => groupWords 0 w.vd.toNat (egroup k e)).dedup } : Group)
    pure { d with groups := groups, clearV := false }

/-- VMOV.M (R242): va into a slice of a tile; a snapshot index past the limit changes nothing. -/
def execVmovM (w : EWord) (s : State) : Host.Outcome State Fault Refusal :=
  s.matrix (.vmovM w) fun b w => do
    let c := s.hart.ctx
    let els := b.active c w
    let _ ← c.poisonRead (maskSrc w) (List.range b.vl)
    let k := tileBits w
    if sliceIdx b w < s.sliceLimit w then
      pure (s.writeT w.vd k (els.map fun e =>
        (tileIdx w (slicePos b w e).1 (slicePos b w e).2, elem (c.vreg w.va) k e, 0, c.poisoned 0 w.va.toNat k e)))
    else pure { state := s, clearV := false }

/-- MCVT of one element (R243). -/
def mcvtOf (src dst : EType) (v : FpEnv) (satur : Bool) (x : Nat) : Flagged :=
  if isFloat src && isFloat dst then
    let r := convert src dst v satur x
    match fdecode dst r.1 with
    | .nan _ => (canonNan .f32, r.2)
    | y => ((roundVal .f32 { v with rm := 0, ftz := false } false true y).1, r.2)
  else convert src dst v false x

/-- MCVT (R243): every element of the window, in its tile form. -/
def execMcvt (w : EWord) (s : State) : Host.Outcome State Fault Refusal :=
  s.windowed (.mcvt w) fun b w cols => do
    let c := s.hart.ctx
    let src := etypeOf (BitVec.ofNat 4 w.fn.toNat)
    let dst := etypeOf w.ty
    let _ ← c.matPoison 2 w.va.toNat 32 ((b.window cols).map fun e => (e.1 * 64 + e.2, e.1 * 64 + e.2))
    pure (s.writeT w.vd 32 ((b.window cols).map fun e =>
      let i := e.1 * 64 + e.2
      let v := if srEligible src dst then s.eEnvSr b w i else s.eEnv b w
      let r := mcvtOf src dst v (bit w.fn.toNat 4) (elem (c.treg w.va.toNat) 32 i)
      (i, r.1, r.2, false)))

end Sys2Proof.Machine
end

