-- ==== Sys2Proof/Machine/ScalarFp.lean ====
section
/-! DEFINITION. Scalar floating point (R166 to R170): each instruction writes one register and ORs its flags into FCSR. -/

namespace Sys2Proof.Machine

/-- The format of a scalar instruction: sz = 1 is .f32 (R166). -/
def fpFmt (z : Bool) : EType := if z then .f32 else .f64

/-- A scalar operand: an .f32 one is bits [31:0] (R166). -/
def State.fpBits (s : State) (t : EType) (a : Reg) : Nat := (s.x a).toNat % 2 ^ etypeBits t

/-- The environment of a scalar instruction with rounding code r (R69, R166). -/
def State.fpScalar (s : State) (r : BitVec 3) : FpEnv := s.fpEnv (roundMode r.toNat (fcsrRm s.hart.ctx.fcsr))

/-- A result with its flags into xd (R166). -/
def State.fpResult (s : State) (d : Reg) (r : Flagged) (srcs : List Reg) : State := (s.raise r.2).result d (word r.1) srcs

/-- A two-operand scalar operation. -/
def State.fp2 (s : State) (d a b : Reg) (r : BitVec 3) (z : Bool) (f : EType → FpEnv → FVal → FVal → Flagged) : State :=
  let t := fpFmt z
  let v := s.fpScalar r
  s.fpResult d (f t v (fread t v.daz (s.fpBits t a)) (fread t v.daz (s.fpBits t b))) [a, b]

/-- FADD (R167): a + b. -/
def execFadd (d a b : Reg) (r : BitVec 3) (z : Bool) (s : State) : Host.Outcome State Fault Refusal :=
  s.checked (.fadd d a b r z) <| .next (s.fp2 d a b r z (Machine.fadd))

/-- FSUB (R167): a - b. -/
def execFsub (d a b : Reg) (r : BitVec 3) (z : Bool) (s : State) : Host.Outcome State Fault Refusal :=
  s.checked (.fsub d a b r z) <| .next (s.fp2 d a b r z (fun t v x y => Machine.fadd t v x y.neg))

/-- FMUL (R167): a * b. -/
def execFmul (d a b : Reg) (r : BitVec 3) (z : Bool) (s : State) : Host.Outcome State Fault Refusal :=
  s.checked (.fmul d a b r z) <| .next (s.fp2 d a b r z (Machine.fmul))

/-- FDIV (R167): a / b. -/
def execFdiv (d a b : Reg) (r : BitVec 3) (z : Bool) (s : State) : Host.Outcome State Fault Refusal :=
  s.checked (.fdiv d a b r z) <| .next (s.fp2 d a b r z (Machine.fdiv))

/-- FSQRT (R167). -/
def execFsqrt (d a : Reg) (r : BitVec 3) (z : Bool) (s : State) : Host.Outcome State Fault Refusal :=
  s.checked (.fsqrt d a r z) <|
    let t := fpFmt z
    let v := s.fpScalar r
    .next (s.fpResult d (Machine.fsqrt t v (fread t v.daz (s.fpBits t a))) [a])

/-- FMIN (R167): the smaller operand. -/
def execFmin (d a b : Reg) (z : Bool) (s : State) : Host.Outcome State Fault Refusal :=
  let t := fpFmt z
  .next (s.fpResult d (fselect t (s.fpEnv 0).daz false (s.fpBits t a) (s.fpBits t b)) [a, b])

/-- FMAX (R167): the larger operand. -/
def execFmax (d a b : Reg) (z : Bool) (s : State) : Host.Outcome State Fault Refusal :=
  let t := fpFmt z
  .next (s.fpResult d (fselect t (s.fpEnv 0).daz true (s.fpBits t a) (s.fpBits t b)) [a, b])

/-- The condition of FCMP (R168): 0 eq, 1 lt, 2 le, 3 un. -/
def scalarCompare (c : Nat) (a b : FVal) : Bool × Nat :=
  match c with
  | 0 => fcompare 0 a b
  | 1 => fcompare 2 a b
  | 2 => fcompare 3 a b
  | _ => (a.isNan || b.isNan, if a.signals || b.signals then nv else 0)

/-- FCMP (R168): 1 or 0 to all of xd. -/
def execFcmp (d a b : Reg) (z : Bool) (c : BitVec 2) (s : State) : Host.Outcome State Fault Refusal :=
  let t := fpFmt z
  let v := s.fpEnv 0
  let r := scalarCompare c.toNat (fread t v.daz (s.fpBits t a)) (fread t v.daz (s.fpBits t b))
  .next (s.fpResult d (flag r.1, r.2) [a, b])

/-- FCVT to a floating-point destination (R169). -/
def execFcvt (d a : Reg) (r : BitVec 3) (z : Bool) (c : BitVec 2) (s : State) : Host.Outcome State Fault Refusal :=
  s.checked (.fcvt d a r z c) <|
    let dst := fpFmt z
    let src : EType := match c.toNat with
      | 0 => fpFmt (!z)
      | 1 => .i64
      | _ => .n64
    .next (s.fpResult d (convert src dst (s.fpScalar r) false ((s.x a).toNat % 2 ^ etypeBits src)) [a])

/-- FCVT to an integer destination (R169). -/
def execFcvtToInt (d a : Reg) (r : BitVec 3) (z : Bool) (c : BitVec 2) (s : State) : Host.Outcome State Fault Refusal :=
  s.checked (.fcvtToInt d a r z c) <|
    let src := fpFmt z
    .next (s.fpResult d (convert src (if c.toNat = 1 then .i64 else .n64) (s.fpScalar r) false (s.fpBits src a)) [a])

/-- FMA (R170): a * b + c with one rounding. -/
def execFma (d a b c : Reg) (r : BitVec 3) (z : Bool) (s : State) : Host.Outcome State Fault Refusal :=
  s.checked (.fma d a b c r z) <|
    let t := fpFmt z
    let v := s.fpScalar r
    let x := fun q => fread t v.daz (s.fpBits t q)
    .next (s.fpResult d (ffma t v (x a) (x b) (x c)) [a, b, c])

end Sys2Proof.Machine
end

