-- ==== Sys2Proof/Machine/VMask.lean ====
section
/-! DEFINITION. Mask instructions, merges, permutes and moves, and the blocks' own VNOP and VSTOP (R141, R187, R195 to R200, R209) -/

namespace Sys2Proof.Machine

/-- VNOP (R209): no effect on any state. -/
def execVnop (w : EWord) (s : State) : Host.Outcome State Fault Refusal :=
  s.eword (.vnop w) fun _ _ => .ok { state := s, clearV := false }

/-- The oldest block ends: the next one takes its place, with the VSTART it was suspended with (R214, R299). -/
def Hart.endBlock (h : Hart) (r : List Block) (n : Nat) : Hart :=
  let v := match r with | b :: _ => if b.vstart = 0 then h.ctx.vstart else b.vstart | [] => h.ctx.vstart
  { h with blocks := r, ctx := { h.ctx with eCount := h.ctx.eCount + n, vstart := v } }

/-- VSTOP (R38, R141): the block ends; with no strip open its pending stores commit. -/
def execVstop (w : EWord) (s : State) : Host.Outcome State Fault Refusal :=
  match s.hart.blocks, shapeOf (.vstop w) with
  | b :: r, some (p, _) =>
    if s.hart.unchecked ≠ [] then .next s
    else if !shapeOk p w then s.ewordTrap b { cause := .illegal } (b.words.getD b.idx 0)
    else
      match if s.hart.ctx.strip.isNone then s.commitAll else .ok s with
      | .error .wait => .next s.commitSome
      | .error (.trap t) => s.ewordTrap b t (b.words.getD b.idx 0)
      | .ok t => .next (t.onFocus fun h => h.endBlock r (flag b.user))
  | _, _ => s.illegal 0

/-- A mask instruction that writes kd (R196): `g` gives the bit of an active element. -/
def State.maskOp (s : State) (b : Block) (w : EWord) (two : Bool) (g : Nat → Bool) : Except Stop Done := do
  let c := s.hart.ctx
  let els := b.active c w
  let _ ← c.poisonRead (maskSrc w) (List.range b.vl)
  let _ ← c.poisonRead ([(1, w.va.toNat, 1)] ++ if two then [(1, w.vb.toNat, 1)] else []) els
  if b.vl = 0 then pure { state := s }
  else pure (s.writeK w.vd.toNat b.vl 32 (els.map fun i => (i, flag (g i), 0)))

/-- Bit i of ka. -/
def Ctx.ka (c : Ctx) (w : EWord) (i : Nat) : Bool := bit (c.kreg w.va.toNat) i
/-- Bit i of kb. -/
def Ctx.kb (c : Ctx) (w : EWord) (i : Nat) : Bool := bit (c.kreg w.vb.toNat) i

/-- The set S of R196: active indices whose bit in ka is set. -/
def Block.setOf (b : Block) (c : Ctx) (w : EWord) : List Nat := (b.active c w).filter (c.ka w)

/-- f of R196: the lowest index in S, or VL. -/
def Block.firstOf (b : Block) (c : Ctx) (w : EWord) : Nat := (b.setOf c w).headD b.vl

/-- KAND (R196): ka and kb. -/
def execKand (w : EWord) (s : State) : Host.Outcome State Fault Refusal :=
  s.eword (.kand w) fun b w => s.maskOp b w true (fun i => s.hart.ctx.ka w i && s.hart.ctx.kb w i)

/-- KOR (R196): ka or kb. -/
def execKor (w : EWord) (s : State) : Host.Outcome State Fault Refusal :=
  s.eword (.kor w) fun b w => s.maskOp b w true (fun i => s.hart.ctx.ka w i || s.hart.ctx.kb w i)

/-- KXOR (R196): ka xor kb. -/
def execKxor (w : EWord) (s : State) : Host.Outcome State Fault Refusal :=
  s.eword (.kxor w) fun b w => s.maskOp b w true (fun i => s.hart.ctx.ka w i != s.hart.ctx.kb w i)

/-- KNOT (R196): not ka. -/
def execKnot (w : EWord) (s : State) : Host.Outcome State Fault Refusal :=
  s.eword (.knot w) fun b w => s.maskOp b w false (fun i => !s.hart.ctx.ka w i)

/-- KSBF (R196): set before the first bit of S. -/
def execKsbf (w : EWord) (s : State) : Host.Outcome State Fault Refusal :=
  s.eword (.ksbf w) fun b w => s.maskOp b w false (fun i => decide (i < b.firstOf s.hart.ctx w))

/-- KSIF (R196): set up to and including the first bit of S. -/
def execKsif (w : EWord) (s : State) : Host.Outcome State Fault Refusal :=
  s.eword (.ksif w) fun b w => s.maskOp b w false (fun i => decide (i ≤ b.firstOf s.hart.ctx w))

/-- KSOF (R196): set only the first bit of S. -/
def execKsof (w : EWord) (s : State) : Host.Outcome State Fault Refusal :=
  s.eword (.ksof w) fun b w => s.maskOp b w false (fun i => decide (i = b.firstOf s.hart.ctx w))

/-- KPOPC and KFIRST (R187, R196). -/
def State.maskScalar (s : State) (b : Block) (w : EWord) (v : Word) : Except Stop Done := do
  let c := s.hart.ctx
  let _ ← c.poisonRead (maskSrc w) (List.range b.vl)
  let _ ← c.poisonRead [(1, w.va.toNat, 1)] (b.active c w)
  pure (s.writeX w.vd 0 v)

/-- KPOPC (R196): the number of elements in S. -/
def execKpopc (w : EWord) (s : State) : Host.Outcome State Fault Refusal :=
  s.eword (.kpopc w) fun b w => s.maskScalar b w (word (b.setOf s.hart.ctx w).length)

/-- KFIRST (R196): the lowest index in S, or all ones. -/
def execKfirst (w : EWord) (s : State) : Host.Outcome State Fault Refusal :=
  s.eword (.kfirst w) fun b w => s.maskScalar b w
    (match (b.setOf s.hart.ctx w).head? with | some f => word f | none => BitVec.allOnes 64)

/-- The merge of R197: A where kc is 1 and B where it is 0, bits and poison unchanged. -/
def State.mergeV (s : State) (b : Block) (w : EWord) : Done :=
  let c := s.hart.ctx
  let width := etypeBits (etypeOf w.ty)
  let kc := c.kreg w.vc.toNat
  s.writeV w.vd width ((List.range b.vl).map fun i =>
    let p := c.poisoned 1 w.vc.toNat 1 i
    if bit kc i then (i, elem (c.vreg w.va) width i, 0, p || c.poisoned 0 w.va.toNat width i)
    else (i, b.operandB c w width i, 0, p || if w.xs then b.bad.contains (w.vb.toNat % 16) else c.poisoned 0 w.vb.toNat width i))

/-- VMERGE (R197). -/
def execVmerge (w : EWord) (s : State) : Host.Outcome State Fault Refusal :=
  s.eword (.vmerge w) fun b w => .ok (s.mergeV b w)

/-- VMERGE.F (R198): DEFERRED for a kept element whose FMASK bit is set; else the merge, and FMASK is cleared. -/
def execVmergeF (w : EWord) (s : State) : Host.Outcome State Fault Refusal :=
  s.eword (.vmergeF w) fun b w =>
    if b.vl = 0 then .ok { state := s }
    else
      match (List.range b.vl).find? fun i => bit (s.hart.ctx.kreg w.vc.toNat) i && bit s.hart.ctx.fmask i with
      | some i => .error (.trap { cause := .deferred, val := word i })
      | none =>
        let d := s.mergeV b w
        .ok { d with state := d.state.setCtx { d.state.hart.ctx with fmask := 0 } }

/-- A permute or move (R200): the listed elements of vd take an element of a source, with its poison, or a constant, poisoned where it
comes from a poisoned register. -/
def State.moveV (s : State) (w : EWord) (els : List (Nat × Option Nat × Nat)) (bad : Bool := false) : Done :=
  let c := s.hart.ctx
  let width := etypeBits (etypeOf w.ty)
  s.writeV w.vd width (els.map fun e =>
    match e.2.1 with
    | some j => (e.1, elem (c.vreg w.va) width j, 0, c.poisoned 0 w.va.toNat width j)
    | none => (e.1, e.2.2 % 2 ^ width, 0, bad))

/-- The slide amount (R199). -/
def slideOf (b : Block) (w : EWord) : Nat := if w.xs then b.scalar w else w.fn.toNat

/-- The governing mask of a move is read by a trapping E-word (R360). -/
def State.moving (s : State) (b : Block) (w : EWord) (g : List Nat → Done) : Except Stop Done := do
  let _ ← s.hart.ctx.poisonRead (maskSrc w) (List.range b.vl)
  pure (g (b.active s.hart.ctx w))

/-- VSLIDEUP (R200). -/
def execVslideup (w : EWord) (s : State) : Host.Outcome State Fault Refusal :=
  s.eword (.vslideup w) fun b w => s.moving b w fun els =>
    s.moveV w ((els.filter fun i => slideOf b w ≤ i).map fun i => (i, some (i - slideOf b w), 0))

/-- VSLIDEDN (R200): elements past VL read as 0. -/
def execVslidedn (w : EWord) (s : State) : Host.Outcome State Fault Refusal :=
  s.eword (.vslidedn w) fun b w => s.moving b w fun els =>
    s.moveV w (els.map fun i => (i, if i + slideOf b w < b.vl then some (i + slideOf b w) else none, 0))

/-- VPERM (R200): vd[i] := va[vb[i]], 0 past VL. The indices are no transferred data, so a poisoned one raises POISON. -/
def execVperm (w : EWord) (s : State) : Host.Outcome State Fault Refusal :=
  s.eword (.vperm w) fun b w => do
    let width := etypeBits (etypeOf w.ty)
    let _ ← s.hart.ctx.poisonRead [(0, w.vb.toNat, width)] (b.active s.hart.ctx w)
    s.moving b w fun els => s.moveV w (els.map fun i =>
      let j := elem (s.hart.ctx.vreg w.vb) width i
      (i, if j < b.vl then some j else none, 0))

/-- The indices below VL whose bit in kc is set (R200). -/
def Block.chosen (b : Block) (c : Ctx) (w : EWord) : List Nat := (List.range b.vl).filter fun i => bit (c.kreg w.vc.toNat) i

/-- VCOMPRESS (R200): the chosen elements move to the front. -/
def execVcompress (w : EWord) (s : State) : Host.Outcome State Fault Refusal :=
  s.eword (.vcompress w) fun b w => do
    let _ ← s.hart.ctx.poisonRead [(1, w.vc.toNat, 1)] (List.range b.vl)
    let l := b.chosen s.hart.ctx w
    pure (s.moveV w ((List.range l.length).map fun j => (j, some (l.getD j 0), 0)))

/-- VEXPAND (R200): the front elements move to the chosen places. -/
def execVexpand (w : EWord) (s : State) : Host.Outcome State Fault Refusal :=
  s.eword (.vexpand w) fun b w => do
    let _ ← s.hart.ctx.poisonRead [(1, w.vc.toNat, 1)] (List.range b.vl)
    let l := b.chosen s.hart.ctx w
    pure (s.moveV w ((List.range l.length).map fun j => (l.getD j 0, some j, 0)))

/-- VIOTA (R200): the number of active set bits of ka before i. -/
def execViota (w : EWord) (s : State) : Host.Outcome State Fault Refusal :=
  s.eword (.viota w) fun b w => do
    let _ ← s.hart.ctx.poisonRead [(1, w.va.toNat, 1)] (b.active s.hart.ctx w)
    s.moving b w fun els => s.moveV w (els.map fun i => (i, none, (els.countP fun j => j < i && s.hart.ctx.ka w j)))

/-- VID (R200): vd[i] := i. -/
def execVid (w : EWord) (s : State) : Host.Outcome State Fault Refusal :=
  s.eword (.vid w) fun b w => s.moving b w fun els => s.moveV w (els.map fun i => (i, none, i))

/-- VBCAST (R200): vd[i] := va[0] or the snapshot entry. -/
def execVbcast (w : EWord) (s : State) : Host.Outcome State Fault Refusal :=
  s.eword (.vbcast w) fun b w => s.moving b w fun els =>
    s.moveV w (els.map fun i => if w.xs then (i, none, b.scalar w) else (i, some 0, 0)) (w.xs && b.bad.contains (w.vb.toNat % 16))

/-- VINS (R200): vd[0] := the snapshot entry. -/
def execVins (w : EWord) (s : State) : Host.Outcome State Fault Refusal :=
  s.eword (.vins w) fun b w => s.moving b w fun els =>
    s.moveV w ((els.filter (· == 0)).map fun i => (i, none, b.scalar w)) (b.bad.contains (w.vb.toNat % 16))

/-- VMOVX (R187, R200): xd := Extend(va[j]), 0 for j at VL or above; it is a move, so that a poisoned element leaves xd
poisoned (R360). -/
def execVmovx (w : EWord) (s : State) : Host.Outcome State Fault Refusal :=
  s.eword (.vmovx w) fun b w =>
    let t := etypeOf w.ty
    let width := etypeBits t
    let j := if w.xs then b.scalar w else 0
    if b.vl ≤ j then .ok (s.writeX w.vd 0 0)
    else
      let x := elem (s.hart.ctx.vreg w.va) width j
      .ok (s.writeX w.vd (s.laneOf width j) (if isSigned t then BitVec.ofInt 64 (signedOf width x) else word x)
        (s.hart.ctx.poisoned 0 w.va.toNat width j))

end Sys2Proof.Machine
end

