-- ==== Sys2Proof/Machine/Dispatch.lean ====
section
/-! DEFINITION. One arm per instruction: a direct call of its meaning. -/

namespace Sys2Proof.Machine

/-- THE DISPATCHER: one arm per constructor of Instr, in the order of Sys2Proof/Syntax.lean. -/
def exec (i : Instr) (s : State) : Host.Outcome State Fault Refusal :=
  match i with
  | .add d a b => Sys2Proof.Machine.execAdd d a b s
  | .sub d a b => Sys2Proof.Machine.execSub d a b s
  | .mul d a b => Sys2Proof.Machine.execMul d a b s
  | .mulh d a b => Sys2Proof.Machine.execMulh d a b s
  | .mulhn d a b => Sys2Proof.Machine.execMulhn d a b s
  | .div d a b => Sys2Proof.Machine.execDiv d a b s
  | .divn d a b => Sys2Proof.Machine.execDivn d a b s
  | .rem d a b => Sys2Proof.Machine.execRem d a b s
  | .remn d a b => Sys2Proof.Machine.execRemn d a b s
  | .and d a b => Sys2Proof.Machine.execAnd d a b s
  | .or d a b => Sys2Proof.Machine.execOr d a b s
  | .xor d a b => Sys2Proof.Machine.execXor d a b s
  | .sll d a b => Sys2Proof.Machine.execSll d a b s
  | .srl d a b => Sys2Proof.Machine.execSrl d a b s
  | .sra d a b => Sys2Proof.Machine.execSra d a b s
  | .slli d a n => Sys2Proof.Machine.execSlli d a n s
  | .srli d a n => Sys2Proof.Machine.execSrli d a n s
  | .srai d a n => Sys2Proof.Machine.execSrai d a n s
  | .slt d a b => Sys2Proof.Machine.execSlt d a b s
  | .sltn d a b => Sys2Proof.Machine.execSltn d a b s
  | .min d a b => Sys2Proof.Machine.execMin d a b s
  | .max d a b => Sys2Proof.Machine.execMax d a b s
  | .minn d a b => Sys2Proof.Machine.execMinn d a b s
  | .maxn d a b => Sys2Proof.Machine.execMaxn d a b s
  | .clz d a => Sys2Proof.Machine.execClz d a s
  | .ctz d a => Sys2Proof.Machine.execCtz d a s
  | .popc d a => Sys2Proof.Machine.execPopc d a s
  | .addi d a im => Sys2Proof.Machine.execAddi d a im s
  | .andi d a im => Sys2Proof.Machine.execAndi d a im s
  | .ori d a im => Sys2Proof.Machine.execOri d a im s
  | .xori d a im => Sys2Proof.Machine.execXori d a im s
  | .slti d a im => Sys2Proof.Machine.execSlti d a im s
  | .ldB d a im => Sys2Proof.Machine.execLdB d a im s
  | .ldBn d a im => Sys2Proof.Machine.execLdBn d a im s
  | .ldH d a im => Sys2Proof.Machine.execLdH d a im s
  | .ldHn d a im => Sys2Proof.Machine.execLdHn d a im s
  | .ldW d a im => Sys2Proof.Machine.execLdW d a im s
  | .ldWn d a im => Sys2Proof.Machine.execLdWn d a im s
  | .ldD d a im => Sys2Proof.Machine.execLdD d a im s
  | .stB d a im => Sys2Proof.Machine.execStB d a im s
  | .stH d a im => Sys2Proof.Machine.execStH d a im s
  | .stW d a im => Sys2Proof.Machine.execStW d a im s
  | .stD d a im => Sys2Proof.Machine.execStD d a im s
  | .beq a b o => Sys2Proof.Machine.execBeq a b o s
  | .bne a b o => Sys2Proof.Machine.execBne a b o s
  | .blt a b o => Sys2Proof.Machine.execBlt a b o s
  | .bge a b o => Sys2Proof.Machine.execBge a b o s
  | .bltn a b o => Sys2Proof.Machine.execBltn a b o s
  | .bgen a b o => Sys2Proof.Machine.execBgen a b o s
  | .bsa g b o => Sys2Proof.Machine.execBsa g b o s
  | .loopv a o => Sys2Proof.Machine.execLoopv a o s
  | .jal d o => Sys2Proof.Machine.execJal d o s
  | .jalr d a im => Sys2Proof.Machine.execJalr d a im s
  | .lui d im => Sys2Proof.Machine.execLui d im s
  | .aipc d im => Sys2Proof.Machine.execAipc d im s
  | .vfetch o => Sys2Proof.Machine.execVfetch o s
  | .vfetchReg a im => Sys2Proof.Machine.execVfetchReg a im s
  | .loopst a sv o => Sys2Proof.Machine.execLoopst a sv o s
  | .setvl d a w => Sys2Proof.Machine.execSetvl d a w s
  | .settl d a => Sys2Proof.Machine.execSettl d a s
  | .stripend => Sys2Proof.Machine.execStripend s
  | .csrr d c => Sys2Proof.Machine.execCsrr d c s
  | .csrw a c => Sys2Proof.Machine.execCsrw a c s
  | .csrs a c => Sys2Proof.Machine.execCsrs a c s
  | .csrc a c => Sys2Proof.Machine.execCsrc a c s
  | .scall a => Sys2Proof.Machine.execScall a s
  | .trap a => Sys2Proof.Machine.execTrap a s
  | .eret => Sys2Proof.Machine.execEret s
  | .wfm => Sys2Proof.Machine.execWfm s
  | .fadd d a b r z => Sys2Proof.Machine.execFadd d a b r z s
  | .fsub d a b r z => Sys2Proof.Machine.execFsub d a b r z s
  | .fmul d a b r z => Sys2Proof.Machine.execFmul d a b r z s
  | .fdiv d a b r z => Sys2Proof.Machine.execFdiv d a b r z s
  | .fsqrt d a r z => Sys2Proof.Machine.execFsqrt d a r z s
  | .fmin d a b z => Sys2Proof.Machine.execFmin d a b z s
  | .fmax d a b z => Sys2Proof.Machine.execFmax d a b z s
  | .fcmp d a b z c => Sys2Proof.Machine.execFcmp d a b z c s
  | .fcvt d a r z c => Sys2Proof.Machine.execFcvt d a r z c s
  | .fcvtToInt d a r z c => Sys2Proof.Machine.execFcvtToInt d a r z c s
  | .fma d a b c r z => Sys2Proof.Machine.execFma d a b c r z s
  | .cp d p => Sys2Proof.Machine.execCp d p s
  | .cpG d p v x q k => Sys2Proof.Machine.execCpG d p v x q k s
  | .cpS d p v x q k => Sys2Proof.Machine.execCpS d p v x q k s
  | .rget d p e => Sys2Proof.Machine.execRget d p e s
  | .rput d p e => Sys2Proof.Machine.execRput d p e s
  | .ratom d a b o z p => Sys2Proof.Machine.execRatom d a b o z p s
  | .await k m g => Sys2Proof.Machine.execAwait k m g s
  | .awaitany d l m n im g => Sys2Proof.Machine.execAwaitany d l m n im g s
  | .sinit d a b => Sys2Proof.Machine.execSinit d a b s
  | .expect a b => Sys2Proof.Machine.execExpect a b s
  | .arrive k b => Sys2Proof.Machine.execArrive k b s
  | .sgen d k => Sys2Proof.Machine.execSgen d k s
  | .tkmake d a b => Sys2Proof.Machine.execTkmake d a b s
  | .ldfe d a e r => Sys2Proof.Machine.execLdfe d a e r s
  | .stfe sv a e r => Sys2Proof.Machine.execStfe sv a e r s
  | .feset a e r => Sys2Proof.Machine.execFeset a e r s
  | .feclr a e r => Sys2Proof.Machine.execFeclr a e r s
  | .amo d a b sv o z p => Sys2Proof.Machine.execAmo d a b sv o z p s
  | .fenceRel sv => Sys2Proof.Machine.execFenceRel sv s
  | .fenceAcq sv => Sys2Proof.Machine.execFenceAcq sv s
  | .fenceAr sv => Sys2Proof.Machine.execFenceAr sv s
  | .fenceSc sv => Sys2Proof.Machine.execFenceSc sv s
  | .lsync => Sys2Proof.Machine.execLsync s
  | .msend t a u y => Sys2Proof.Machine.execMsend t a u y s
  | .spawn d a n => Sys2Proof.Machine.execSpawn d a n s
  | .yield => Sys2Proof.Machine.execYield s
  | .cexit => Sys2Proof.Machine.execCexit s
  | .galloc d sv l => Sys2Proof.Machine.execGalloc d sv l s
  | .gfree a => Sys2Proof.Machine.execGfree a s
  | .gdecl d a => Sys2Proof.Machine.execGdecl d a s
  | .gstep g j => Sys2Proof.Machine.execGstep g j s
  | .gwait g j => Sys2Proof.Machine.execGwait g j s
  | .gdrop g => Sys2Proof.Machine.execGdrop g s
  | .vnop w => Sys2Proof.Machine.execVnop w s
  | .vstop w => Sys2Proof.Machine.execVstop w s
  | .vadd w => Sys2Proof.Machine.execVadd w s
  | .vsub w => Sys2Proof.Machine.execVsub w s
  | .vmul w => Sys2Proof.Machine.execVmul w s
  | .vfma w => Sys2Proof.Machine.execVfma w s
  | .vfms w => Sys2Proof.Machine.execVfms w s
  | .vfnma w => Sys2Proof.Machine.execVfnma w s
  | .vdiv w => Sys2Proof.Machine.execVdiv w s
  | .vsqrt w => Sys2Proof.Machine.execVsqrt w s
  | .vrsqrt w => Sys2Proof.Machine.execVrsqrt w s
  | .vrcp w => Sys2Proof.Machine.execVrcp w s
  | .vexp2 w => Sys2Proof.Machine.execVexp2 w s
  | .vlog2 w => Sys2Proof.Machine.execVlog2 w s
  | .vmin w => Sys2Proof.Machine.execVmin w s
  | .vmax w => Sys2Proof.Machine.execVmax w s
  | .vabs w => Sys2Proof.Machine.execVabs w s
  | .vneg w => Sys2Proof.Machine.execVneg w s
  | .vmulh w => Sys2Proof.Machine.execVmulh w s
  | .vsadd w => Sys2Proof.Machine.execVsadd w s
  | .vssub w => Sys2Proof.Machine.execVssub w s
  | .vshl w => Sys2Proof.Machine.execVshl w s
  | .vshr w => Sys2Proof.Machine.execVshr w s
  | .vsra w => Sys2Proof.Machine.execVsra w s
  | .vand w => Sys2Proof.Machine.execVand w s
  | .vor w => Sys2Proof.Machine.execVor w s
  | .vxor w => Sys2Proof.Machine.execVxor w s
  | .vnot w => Sys2Proof.Machine.execVnot w s
  | .vclz w => Sys2Proof.Machine.execVclz w s
  | .vpopc w => Sys2Proof.Machine.execVpopc w s
  | .vcmp w => Sys2Proof.Machine.execVcmp w s
  | .kand w => Sys2Proof.Machine.execKand w s
  | .kor w => Sys2Proof.Machine.execKor w s
  | .kxor w => Sys2Proof.Machine.execKxor w s
  | .knot w => Sys2Proof.Machine.execKnot w s
  | .ksbf w => Sys2Proof.Machine.execKsbf w s
  | .ksif w => Sys2Proof.Machine.execKsif w s
  | .ksof w => Sys2Proof.Machine.execKsof w s
  | .kpopc w => Sys2Proof.Machine.execKpopc w s
  | .kfirst w => Sys2Proof.Machine.execKfirst w s
  | .vmerge w => Sys2Proof.Machine.execVmerge w s
  | .vmergeF w => Sys2Proof.Machine.execVmergeF w s
  | .vslideup w => Sys2Proof.Machine.execVslideup w s
  | .vslidedn w => Sys2Proof.Machine.execVslidedn w s
  | .vperm w => Sys2Proof.Machine.execVperm w s
  | .vcompress w => Sys2Proof.Machine.execVcompress w s
  | .vexpand w => Sys2Proof.Machine.execVexpand w s
  | .viota w => Sys2Proof.Machine.execViota w s
  | .vid w => Sys2Proof.Machine.execVid w s
  | .vbcast w => Sys2Proof.Machine.execVbcast w s
  | .vmovx w => Sys2Proof.Machine.execVmovx w s
  | .vins w => Sys2Proof.Machine.execVins w s
  | .vredsum w => Sys2Proof.Machine.execVredsum w s
  | .vredmax w => Sys2Proof.Machine.execVredmax w s
  | .vredmin w => Sys2Proof.Machine.execVredmin w s
  | .vscanAdd w => Sys2Proof.Machine.execVscanAdd w s
  | .vscanMax w => Sys2Proof.Machine.execVscanMax w s
  | .vcvt w => Sys2Proof.Machine.execVcvt w s
  | .vscale w => Sys2Proof.Machine.execVscale w s
  | .vld w => Sys2Proof.Machine.execVld w s
  | .vlds w => Sys2Proof.Machine.execVlds w s
  | .vldx w => Sys2Proof.Machine.execVldx w s
  | .vldff w => Sys2Proof.Machine.execVldff w s
  | .vldg w => Sys2Proof.Machine.execVldg w s
  | .vpref w => Sys2Proof.Machine.execVpref w s
  | .vst w => Sys2Proof.Machine.execVst w s
  | .vsts w => Sys2Proof.Machine.execVsts w s
  | .vstx w => Sys2Proof.Machine.execVstx w s
  | .vstg w => Sys2Proof.Machine.execVstg w s
  | .vsqCommit w => Sys2Proof.Machine.execVsqCommit w s
  | .vsqDrop w => Sys2Proof.Machine.execVsqDrop w s
  | .mstart w => Sys2Proof.Machine.execMstart w s
  | .mstop w => Sys2Proof.Machine.execMstop w s
  | .mzero w => Sys2Proof.Machine.execMzero w s
  | .opa w => Sys2Proof.Machine.execOpa w s
  | .ops w => Sys2Proof.Machine.execOps w s
  | .opaSp w => Sys2Proof.Machine.execOpaSp w s
  | .mld w => Sys2Proof.Machine.execMld w s
  | .mst w => Sys2Proof.Machine.execMst w s
  | .mlatch w => Sys2Proof.Machine.execMlatch w s
  | .mrot w => Sys2Proof.Machine.execMrot w s
  | .mmovV w => Sys2Proof.Machine.execMmovV w s
  | .vmovM w => Sys2Proof.Machine.execVmovM w s
  | .mcvt w => Sys2Proof.Machine.execMcvt w s
  | .wakeNotice cid gran => Sys2Proof.Machine.execWakeNotice cid gran s
  | .waiterReread cid gran => Sys2Proof.Machine.execWaiterReread cid gran s
  | .contribute tok n by_ => Sys2Proof.Machine.execContribute tok n by_ s
  | .remoteNack rid => Sys2Proof.Machine.execRemoteNack rid s
  | .remoteResponse rid p => Sys2Proof.Machine.execRemoteResponse rid p s
  | .activate p => Sys2Proof.Machine.execActivate p s
  | .drain p => Sys2Proof.Machine.execDrain p s
  | .resetPartition p => Sys2Proof.Machine.execResetPartition p s
  | .release p => Sys2Proof.Machine.execRelease p s
  | .waitSignalled q n => Sys2Proof.Machine.execWaitSignalled q n s
  | .handlerCreate cid => Sys2Proof.Machine.execHandlerCreate cid s
  | .overflowMove cid => Sys2Proof.Machine.execOverflowMove cid s
  | .generatedMsgPlace cid => Sys2Proof.Machine.execGeneratedMsgPlace cid s
  | .messageResend n => Sys2Proof.Machine.execMessageResend n s
  | .messageArrival r m => Sys2Proof.Machine.execMessageArrival r m s
  | .contextFetch cid gid coid => Sys2Proof.Machine.execContextFetch cid gid coid s
  | .hartSelect cid h => Sys2Proof.Machine.execHartSelect cid h s
  | .asyncTrapTake cid => Sys2Proof.Machine.execAsyncTrapTake cid s
  | .pendingTrapDeliver a => Sys2Proof.Machine.execPendingTrapDeliver a s
  | .wfmResume a => Sys2Proof.Machine.execWfmResume a s
  | .quantumSwitch cid h => Sys2Proof.Machine.execQuantumSwitch cid h s
  | .preemptTake cid h => Sys2Proof.Machine.execPreemptTake cid h s
  | .preempt cid gid coid => Sys2Proof.Machine.execPreempt cid gid coid s
  | .restore cid gid coid => Sys2Proof.Machine.execRestore cid gid coid s
  | .move cid gid coid => Sys2Proof.Machine.execMove cid gid coid s
  | .discard cid gid coid => Sys2Proof.Machine.execDiscard cid gid coid s
  | .gangExit gid => Sys2Proof.Machine.execGangExit gid s
  | .skinkWriteLand n => Sys2Proof.Machine.execSkinkWriteLand n s
  | .copyPieceLand n row skip len => Sys2Proof.Machine.execCopyPieceLand n row skip len s
  | .copyRewalk n => Sys2Proof.Machine.execCopyRewalk n s
  | .pageInFrameRetry n => Sys2Proof.Machine.execPageInFrameRetry n s
  | .pageInComplete n => Sys2Proof.Machine.execPageInComplete n s
  | .heldContributionRewalk n => Sys2Proof.Machine.execHeldContributionRewalk n s
  | .remoteStoreSend cid => Sys2Proof.Machine.execRemoteStoreSend cid s
  | .unallocatedOpcode w => Sys2Proof.Machine.execUnallocatedOpcode w s
  | .fetchFault t => Sys2Proof.Machine.execFetchFault t s
  | .remoteRequest r => Sys2Proof.Machine.execRemoteRequest r s
  | .vectorRequest r v => Sys2Proof.Machine.execVectorRequest r v s
  | .remoteAtomicRequest r => Sys2Proof.Machine.execRemoteAtomicRequest r s
  | .keyUpdate side => Sys2Proof.Machine.execKeyUpdate side s
  | .testLease kind index => Sys2Proof.Machine.execTestLease kind index s
  | .checkingPoint a rounds => Sys2Proof.Machine.execCheckingPoint a rounds s
  | .hostWrite port addr data => Sys2Proof.Machine.execHostWrite port addr data s
  | .freeze mask image => Sys2Proof.Machine.execFreeze mask image s
  | .timer q => Sys2Proof.Machine.execTimer q s
  | .watchdog q n => Sys2Proof.Machine.execWatchdog q n s
  | .thaw image sealOk => Sys2Proof.Machine.execThaw image sealOk s
  | .mrotWithdraw a => Sys2Proof.Machine.execMrotWithdraw a s
  | .remoteAcknowledgement rid => Sys2Proof.Machine.execRemoteAcknowledgement rid s
  | .priorityPromote cid gid coid => Sys2Proof.Machine.execPriorityPromote cid gid coid s
  | .quantumExpire cid h => Sys2Proof.Machine.execQuantumExpire cid h s
  | .allowanceGrant ep units => Sys2Proof.Machine.execAllowanceGrant ep units s
  | .allowanceReservedGrant ep => Sys2Proof.Machine.execAllowanceReservedGrant ep s
  | .combineFlushTimeout cid n => Sys2Proof.Machine.execCombineFlushTimeout cid n s
  | .lockPort port => Sys2Proof.Machine.execLockPort port s
  | .startPort port => Sys2Proof.Machine.execStartPort port s
  | .stopPort port => Sys2Proof.Machine.execStopPort port s
  | .peerWrite port peer => Sys2Proof.Machine.execPeerWrite port peer s
  | .getVersion port ok => Sys2Proof.Machine.execGetVersion port ok s
  | .getCapabilities port ok => Sys2Proof.Machine.execGetCapabilities port ok s
  | .negotiateAlgorithms port algs => Sys2Proof.Machine.execNegotiateAlgorithms port algs s
  | .getDigests port ok => Sys2Proof.Machine.execGetDigests port ok s
  | .getCertificate port ok => Sys2Proof.Machine.execGetCertificate port ok s
  | .challenge port ok => Sys2Proof.Machine.execChallenge port ok s
  | .getMeasurements port peer => Sys2Proof.Machine.execGetMeasurements port peer s
  | .keyExchange port ok => Sys2Proof.Machine.execKeyExchange port ok s
  | .finish port ok => Sys2Proof.Machine.execFinish port ok s
  | .flitReceive port tagOk replayed => Sys2Proof.Machine.execFlitReceive port tagOk replayed s
  | .linkRetrain port ok => Sys2Proof.Machine.execLinkRetrain port ok s
  | .hostRead port addr n => Sys2Proof.Machine.execHostRead port addr n s
  | .hostLinkUp port => Sys2Proof.Machine.execHostLinkUp port s
  | .hostLinkDown port => Sys2Proof.Machine.execHostLinkDown port s
  | .powerOn => Sys2Proof.Machine.execPowerOn s
  | .resetModule => Sys2Proof.Machine.execResetModule s
  | .commitSvn => Sys2Proof.Machine.execCommitSvn s
  | .firmwareUpdateWrite image => Sys2Proof.Machine.execFirmwareUpdateWrite image s
  | .logRead n => Sys2Proof.Machine.execLogRead n s
  | .sensorRead n => Sys2Proof.Machine.execSensorRead n s
  | .sensorSample n value => Sys2Proof.Machine.execSensorSample n value s
  | .podKeyProvision key => Sys2Proof.Machine.execPodKeyProvision key s
  | .eidAssign eid => Sys2Proof.Machine.execEidAssign eid s
  | .creditGrant cluster budget => Sys2Proof.Machine.execCreditGrant cluster budget s
  | .creditFloor cluster => Sys2Proof.Machine.execCreditFloor cluster s
  | .scoreDecay kind index => Sys2Proof.Machine.execScoreDecay kind index s
  | .testPassEnd kind index pass => Sys2Proof.Machine.execTestPassEnd kind index pass s
  | .rowSpareCopy channel row bad permanent => Sys2Proof.Machine.execRowSpareCopy channel row bad permanent s
  | .forcedRollback cid h => Sys2Proof.Machine.execForcedRollback cid h s
  | .preemptRollback cid h => Sys2Proof.Machine.execPreemptRollback cid h s
  | .stallTimeout cid h => Sys2Proof.Machine.execStallTimeout cid h s
  | .walkerTurn q place => Sys2Proof.Machine.execWalkerTurn q place s
  | .vcfgWrite v => Sys2Proof.Machine.execVcfgWrite v s
  | .fmaskWrite => Sys2Proof.Machine.execFmaskWrite s
  | .slpartWrite v => Sys2Proof.Machine.execSlpartWrite v s
  | .inboxcfgWrite v => Sys2Proof.Machine.execInboxcfgWrite v s
  | .ovfcfgWrite v => Sys2Proof.Machine.execOvfcfgWrite v s
  | .ovfbaseWrite v => Sys2Proof.Machine.execOvfbaseWrite v s
  | .inboxdropHead v => Sys2Proof.Machine.execInboxdropHead v s
  | .qbmbaseWrite q v => Sys2Proof.Machine.execQbmbaseWrite q v s
  | .wctlWrite q v => Sys2Proof.Machine.execWctlWrite q v s
  | .fevqRead q d => Sys2Proof.Machine.execFevqRead q d s
  | .ftcmpWrite q v => Sys2Proof.Machine.execFtcmpWrite q v s
  | .registerWrite c v => Sys2Proof.Machine.execRegisterWrite c v s

end Sys2Proof.Machine
end

