-- ==== Sys2Proof/Machine/Front.lean ====
section
/-! DEFINITION. What the agent in view does next: the fetch of S-words and element blocks, the choice between the front end
and the lanes, the work that is due at a boundary, and what time brings (R134 to R136, R141, R183, R298, log entry 3). -/

namespace Sys2Proof.Machine

/-- The instruction at the PC: decoded, or the row that takes its fetch fault or refuses its opcode (R135, R136, R138). DESIGN CHOICE (log
entry 95): a PC that is not 4-byte aligned, which only a SEPC or an entry PC can bring, fetches the four bytes there. -/
def State.fetched (s : State) : Instr :=
  match s.fetchBits s.view 1 s.pc.toNat 4 with
  | .error t => .fetchFault t
  | .ok w =>
    match decodeBytes (bytesOf 4 w) with
    | some i => i
    | none => .unallocatedOpcode (.sword (BitVec.ofNat 32 w))

/-- The E-word a block runs next: decoded, its fetch fault, or a refused opcode; a 64th word that is not VSTOP raises
ILLEGAL (R141, R142, R148). -/
def Block.next (b : Block) : Instr :=
  match b.words[b.idx]? with
  | some w =>
    match decodeE w.toNat with
    | some (.vstop w) => .vstop w
    | some i => if b.idx ≥ 63 then .unallocatedOpcode (.eword w) else i
    | none => .unallocatedOpcode (.eword w)
  | none => .fetchFault (b.fault.getD { cause := .illegal })

/-- S-words that neither fault, close a strip, read memory nor wait: they may run while a block is in flight (R159, R183). -/
def runsAhead (i : Instr) : Bool :=
  match i with
  | .add .. | .sub .. | .mul .. | .mulh .. | .mulhn .. | .div .. | .divn .. | .rem .. | .remn .. | .and .. | .or .. | .xor ..
  | .sll .. | .srl .. | .sra .. | .slli .. | .srli .. | .srai .. | .slt .. | .sltn .. | .min .. | .max .. | .minn .. | .maxn ..
  | .clz .. | .ctz .. | .popc .. | .addi .. | .andi .. | .ori .. | .xori .. | .slti .. | .lui .. | .aipc .. | .jal ..
  | .beq .. | .bne .. | .blt .. | .bge .. | .bltn .. | .bgen .. | .bsa .. | .settl .. | .vfetch .. | .vfetchReg .. => true
  | _ => false

/-- An E-word that writes a scalar register or VL (R187, R218). -/
def writesScalar (i : Instr) : Bool :=
  match i with
  | .vmovx .. | .kpopc .. | .kfirst .. | .vldff .. => true
  | _ => false

/-- The blocks in flight hold no E-word that writes a scalar register or VL. -/
def Hart.plainBlocks (h : Hart) : Bool :=
  h.blocks.all fun b => (b.words.drop b.idx).all fun w => match decodeE w.toNat with
    | some i => !writesScalar i
    | none => true

/-- A strip boundary of the front end in view (R38). -/
def Hart.boundary (h : Hart) : Bool := h.ctx.strip.isNone && h.blocks.isEmpty

/-- An asynchronous trap of the core can be taken on the hart in view now (R298). -/
def State.asyncDue (s : State) : Bool :=
  s.pending && (s.hart.boundary || s.pendedDue) && s.asyncFree && (s.hart.run == .idle || s.hart.run == .running)

/-- The coroutine that the hart in view runs. -/
def State.coro? (s : State) : Option Coro :=
  match s.focus, s.hart.occ with
  | .hart cid _, some (g, n) => (s.core cid).coro g n
  | _, _ => none

/-- The work that is due for the agent in view before its next instruction (R26, R32, R33, R241, R251, R260, R298, R300, R356). -/
def State.due (s : State) : Option Instr :=
  if !s.hart.unchecked.isEmpty then some (.checkingPoint s.focus [])
  else if s.hart.run = .wfm then (if s.wfmDone then some (.wfmResume s.focus) else none)
  else if s.asyncDue then some (.asyncTrapTake s.cid)
  else if s.ownTrapDue then some (.pendingTrapDeliver s.focus)
  else
    match s.focus with
    | .fw _ => none
    | .hart cid h =>
      if s.hart.run = .idle then (if ((s.core cid).choose h).isSome then some (.hartSelect cid h) else none)
      else if s.hart.run = .ring ∧ s.hart.preemptReq then some (.preemptTake cid h)
      else if s.hart.run = .running ∧ s.hart.level = .user ∧ s.hart.boundary then
        if s.hart.preemptReq then some (.preemptTake cid h)
        else if (match s.coro? with | some k => !k.traps.isEmpty | none => false) then some (.pendingTrapDeliver s.focus)
        else if s.hart.switchReq then some (.quantumSwitch cid h)
        else none
      else none

/-- The agent in view executes instructions at its PC. -/
def State.active (s : State) : Bool :=
  match s.hart.run with
  | .running => true
  | .stall _ => true
  | _ => false

/-- The E-word of the oldest block in flight. -/
def State.laneInstr (s : State) : Option Instr := s.hart.blocks.head?.map Block.next

/-- Cycles pass for a front end (R32, R33, R130, R241, R298, R305); `due` while an asynchronous trap waits for it (R298). -/
def Hart.pass (n : Nat) (due : Bool) (h : Hart) : Hart :=
  let waits := match h.run with | .stall _ => true | .ring => true | _ => false
  let free := !(h.level != .user && statusBit h.sstatus inTrapBit)
  { h with ran := if h.occ.isSome && h.level == .user then h.ran + n else h.ran,
           asked := if h.preemptReq && h.level == .user then h.asked + n else 0,
           due := if due && free then h.due + n else 0,
           held := if waits then h.held + n else 0,
           pped := if statusBit h.sstatus ppBit then h.pped + n else 0 }

/-- Cycles pass for every front end of a core. -/
def State.pass (s : State) (cid n : Nat) : State :=
  let c := s.core cid
  let f := fun (a : Agent) (h : Hart) => match a with
    | .hart d k => if d = cid then h.pass n (c.evhart == k && !c.asyncs.isEmpty) else h
    | .fw _ => h
  let s := s.onCore cid fun c => { c with cycle := (c.cycle + n) % 2 ^ 64 }
  { s with hart := f s.focus s.hart, harts := s.harts.map fun e => (e.1, f e.1 e.2) }

/-- The watchdog of a slot counts cycles of its launch processor while its queue has a running launch, up to a non-zero WDLIMIT; it
stops while its partition freezes or drains (R322, R328, R345). -/
def State.countSlot (s : State) (q n : Nat) (e : Slot) : Slot :=
  let part := bits (s.qword q e.qsb 8) 50 47
  if (s.running q e.qsb).isEmpty ∨ s.freezes part ∨ s.partState part = 2 then e
  else
    let limit := s.qword q e.qsb 0x30
    { e with wdcount := if limit = 0 then (e.wdcount + n) % 2 ^ 64 else min limit (e.wdcount + n) }

/-- The watchdogs count, each in the clock of its own launch processor (R321, R322; log entry 4). -/
def State.watch (s : State) : State :=
  (List.range 4).foldl (fun t q =>
    t.onQuad q fun k => { k with slots := k.slots.map (s.countSlot q (Config.freeLaunchCycles s.tick q)) }) s

/-- Time passes (R52, R321, R322, R326): the clocks of the agent that moves and of the watchdogs advance by free numbers of
cycles (log entry 4), and `tick` moves on. -/
def State.clock (s : State) : State :=
  let n := Config.freeCycles s.tick
  let t := match s.focus with
    | .hart cid _ => s.pass cid n
    | .fw q =>
      (s.onQuad q fun k => { k with ftimer := (k.ftimer + n) % 2 ^ 64 }).onFocus fun h => h.pass n (!(s.core (2048 + q)).asyncs.isEmpty)
  { t.watch with tick := s.tick + 1 }

/-- The agent exists: a hart of a core's configuration, or one of four firmware cores (R9, R12). -/
def State.exists (s : State) (a : Agent) : Bool :=
  match a with
  | .hart cid h => decide (cid < Config.cores ∧ h < (s.core cid).harts)
  | .fw q => decide (q < 4)

/-- What the management interface and power bring; it alone arrives while every clock is stopped (R391 to R398). -/
def managementBrings (i : Instr) : Bool :=
  match i with
  | .powerOn | .resetModule | .commitSvn | .firmwareUpdateWrite .. | .logRead .. | .sensorRead .. | .sensorSample .. => true
  | _ => false

/-- The events that time, other endpoints, the host, the management interface or the hardware's own units bring; the other
rows are instructions, or follow from what an instruction did (log entry 3). -/
def timeBrings (i : Instr) : Bool :=
  managementBrings i ||
  match i with
  | .waiterReread .. | .hartSelect .. | .wfmResume .. | .quantumSwitch .. | .preemptTake .. | .asyncTrapTake ..
  | .pendingTrapDeliver .. | .mrotWithdraw .. | .forcedRollback .. | .preemptRollback .. | .stallTimeout .. | .walkerTurn ..
  | .testLease .. | .checkingPoint .. | .timer .. | .priorityPromote .. | .quantumExpire .. | .allowanceGrant ..
  | .allowanceReservedGrant .. | .combineFlushTimeout .. | .watchdog .. | .freeze .. | .thaw .. | .getVersion ..
  | .getCapabilities .. | .negotiateAlgorithms .. | .getDigests .. | .getCertificate .. | .challenge .. | .getMeasurements ..
  | .keyExchange .. | .finish .. | .keyUpdate .. | .flitReceive .. | .linkRetrain .. | .hostWrite .. | .hostRead ..
  | .hostLinkUp .. | .hostLinkDown .. | .podKeyProvision .. | .eidAssign .. | .creditGrant .. | .creditFloor ..
  | .scoreDecay .. | .testPassEnd .. | .rowSpareCopy .. | .copyPieceLand .. | .pageInComplete .. | .remoteRequest ..
  | .vectorRequest .. | .remoteAtomicRequest .. | .remoteResponse .. | .remoteAcknowledgement .. | .remoteNack ..
  | .messageArrival .. | .waitSignalled .. | .wakeNotice .. => true
  | .contribute _ _ (.remote _ _) => true
  | _ => false

/-- An event that time brings comes from outside: an answer to a request that left over a port, a request of another endpoint. What goes
back to this device itself is on its agenda (R82). -/
def State.fromOutside (s : State) (i : Instr) : Bool :=
  match i with
  | .remoteResponse rid _ | .remoteAcknowledgement rid | .remoteNack rid =>
    s.fabric.sent.any fun r => r.rid == rid && match r.way with | .port _ => true | _ => false
  | .remoteRequest r | .vectorRequest r _ | .remoteAtomicRequest r | .messageArrival r _ => r.sep != s.fabric.eid
  | _ => true

/-- S-words that issue copies (R397). -/
def issuesCopy (i : Instr) : Bool :=
  match i with
  | .cp .. | .cpG .. | .cpS .. | .rget .. | .rput .. => true
  | _ => false

/-- A matrix, vector or copy issue of the agent in view spends a credit of its ring cluster; none where the cluster has spent its budget and
holds (R397). DESIGN CHOICE (log entry 83): an issue costs one credit, and a cluster without a budget yet issues freely. -/
def State.spend (s : State) : Option State :=
  match s.focus with
  | .fw _ => some s
  | .hart cid _ =>
    match s.eft.budgets.lookup (cid / 8) with
    | none => some s
    | some 0 => none
    | some (n + 1) => some { s with eft := { s.eft with budgets := assocSet s.eft.budgets (cid / 8) n } }

/-- The next S-word of the front end in view. -/
def State.frontIssue (s : State) : Option (Instr × State) :=
  if issuesCopy s.fetched then s.spend.map fun t => (s.fetched, t) else some (s.fetched, s)

/-- The next E-word of the lanes of the agent in view. -/
def State.laneIssue (s : State) : Option (Instr × State) := s.laneInstr.bind fun i => s.spend.map fun t => (i, t)

/-- The front end in view moves: what is due, else its next S-word, where it may run ahead of the blocks in flight, else the
lanes' next E-word (R159, R183). -/
def State.frontMove (s : State) : Option (Instr × State) :=
  match s.due with
  | some i => some (i, s)
  | none =>
    if s.hart.run = .running ∧ (s.hart.blocks = [] ∨ (s.hart.plainBlocks ∧ runsAhead s.fetched)) then s.frontIssue
    else if s.active then s.laneIssue else none

/-- The lanes of the agent in view move: what is due, else the next E-word, else the front end's next S-word. -/
def State.laneMove (s : State) : Option (Instr × State) :=
  match s.due with
  | some i => some (i, s)
  | none =>
    if !s.active then none
    else match s.laneInstr with
      | some _ => s.laneIssue
      | none => if s.hart.run = .running then s.frontIssue else none

/-- The turn that a free choice of time comes to (log entry 3); nothing for a choice that names no agent or event. -/
def State.freeMove (s : State) : Option (Instr × State) :=
  match freeTurn s.tick with
  | some (.event i) => if timeBrings i && s.fromOutside i then some (i, s.clock) else none
  | some (.front a) => if s.exists a then (s.focusOn a).clock.frontMove else none
  | some (.lanes a) => if s.exists a then (s.focusOn a).clock.laneMove else none
  | _ => none

/-- A front end fetches a word of an execute kind ahead of execution, where a fetch would find it (R136). -/
def State.fetchAhead (s : State) (a : Agent) (kind va : Nat) : State :=
  let t := s.focusOn a
  let n := if kind = 1 then 4 else 8
  if !s.exists a ∨ (kind ≠ 1 ∧ kind ≠ 2) ∨ va % n ≠ 0 ∨ t.hart.run = .idle ∨ t.hart.run = .stopped ∨ (t.aheadWord kind va).isSome then s
  else match t.fetchSpot t.view kind va with
    | .ok l => s.onHart a fun h => { h with ahead := h.ahead ++ [(kind, va, s.num l n)] }
    | .error _ => s

/-- What time brings beside events (log entry 3): an error of storage (R358), a grant that this device makes as a destination to a
source it does not hold at zero (R36, R37), a fetch ahead of execution (R136), a store of the host (R386), a flit that a port sends (R383), the image of
another device (R330, R389): its memories in the canonical form in which a state holds them. -/
def State.bring (s : State) : State :=
  match freeTurn s.tick with
  | some (.error e k kind index) => s.storageError e k kind index
  | some (.grant ep units) =>
    if ep ≥ 8192 ∨ ep = s.fabric.eid ∨ s.fabric.heldAt.contains ep ∨ !s.linked then s
    else { s with fabric := { s.fabric with out := s.fabric.out ++ [.grant ep units] } }
  | some (.ahead a kind va) => s.fetchAhead a kind va
  | some (.hostStore addr bs) => s.hostStore addr bs
  | some (.flit port) => s.sendFlit port
  | some (.image g) => if g.canonical then { s with images := s.images.filter (·.addr != g.addr) ++ [g] } else s
  | _ => s

/-- Which instruction or event moves next, with the state in which it is executed; none when nothing can move. An entry of
the agenda that is no event and no turn of an agent leaves the choice to time. -/
def State.next (s : State) : Option (Instr × State) :=
  match s.agenda with
  | .event i :: r => some (i, ({ s with agenda := r } : State).clock)
  | .front a :: r => (({ s with agenda := r } : State).focusOn a).clock.frontMove
  | .lanes a :: r => (({ s with agenda := r } : State).focusOn a).clock.laneMove
  | _ :: r => ({ s with agenda := r } : State).freeMove
  | [] =>
    match s.freeMove with
    | some m => some m
    | none => s.bring.clock.laneMove

/-- The management requests that arrive over the fabric: FREEZE, THAW, attestation, the pod key and the endpoint ID (R374, R388, R389). -/
def vc3Brings (i : Instr) : Bool :=
  match i with
  | .freeze .. | .thaw .. | .getVersion .. | .getCapabilities .. | .negotiateAlgorithms .. | .getDigests .. | .getCertificate ..
  | .challenge .. | .getMeasurements .. | .keyExchange .. | .finish .. | .podKeyProvision .. | .eidAssign .. => true
  | _ => false

/-- What moves while every clock is stopped (R391, R393, R398): the management interface, and the requests that the Eft answers with a NACK
before boot complete. -/
def State.stoppedMove (s : State) : Option (Instr × State) :=
  match s.next with
  | some (i, t) => if managementBrings i || (vc3Brings i && !s.eft.tripped) then some (i, t) else none
  | none => none

/-- What happens only while the clocks run (R398). -/
def State.onClocks (s : State) (f : State → State) : State := if s.eft.clocks then f s else s

/-- The state in which nothing moves: a turn of the agenda that finds nothing to do is spent, and time passes. While every clock is
stopped, time brings nothing of the module's own. -/
def State.idleStep (s : State) : State :=
  match s.agenda with
  | .front a :: r => (({ s with agenda := r } : State).focusOn a).clock
  | .lanes a :: r => (({ s with agenda := r } : State).focusOn a).clock
  | _ => (({ s with agenda := s.agenda.drop 1 } : State).onClocks State.bring).clock

/-- The root of the agent in view (R332). -/
def State.ownRoot (s : State) : Nat := s.view.root

/-- Tables that map one page to itself for the agent in view, with the execute kind `xk`, written straight into device
memory: what a loader would do before the run (log entry 7). -/
def State.mapPage (s : State) (va xk frame tables : Nat) : State :=
  let ptr := fun a => 2 ^ 63 + a
  let s := s.putNum (.dev (s.ownRoot + 8 * (va / 2 ^ 48 % 256))) 8 (ptr tables)
  let s := s.putNum (.dev (tables + 8 * (va / 2 ^ 39 % 512))) 8 (ptr (tables + 0x1000))
  let s := s.putNum (.dev (tables + 0x1000 + 8 * (va / 2 ^ 30 % 512))) 8 (ptr (tables + 0x2000))
  let s := s.putNum (.dev (tables + 0x2000 + 8 * (va / 2 ^ 21 % 512))) 8 (ptr (tables + 0x3000))
  s.putNum (.dev (tables + 0x3000 + 8 * (va / 2 ^ 16 % 32))) 8
    (2 ^ 63 + xk * 2 ^ 60 + 2 ^ 59 + 2 ^ 58 + 2 ^ 56 + frame)

/-- Place an instruction where the next step takes it: an S-word in memory at the PC of the agent in view, whose page is
mapped for it; an E-word as the one word of a block in flight (log entry 7). -/
def State.placeWord (s : State) (nbits w : Nat) : State :=
  let s : State := { s with agenda := [if nbits = 32 then .front s.focus else .lanes s.focus], eft := { s.eft with clocks := true } }
  if nbits = 32 then
    let s := s.onFocus fun h => { h with run := .running, blocks := [], unchecked := [], ahead := [], preemptReq := false, switchReq := false }
    let s := s.mapPage s.pc.toNat 1 0x4000000 0x2000000
    s.putNum (.dev (0x4000000 + s.pc.toNat % 0x10000)) 4 w
  else
    s.onFocus fun h =>
      { h with run := .running, unchecked := [], ahead := [], preemptReq := false, switchReq := false,
               blocks := [{ addr := 0, words := [word w], fault := none, idx := 0, snap := (List.range 16).map fun i => h.ctx.x[(16 + i) % 32]!,
                            vl := h.ctx.vl, tl := h.ctx.tl, p := lpsGuards h.ctx.lps, rm := bits h.ctx.fcsr.toNat 14 12, vstart := 0, raise := none, bad := [],
                            sCount := h.ctx.sCount, inStrip := h.ctx.strip.isSome, user := h.level == .user }] }

end Sys2Proof.Machine
end

