-- ==== Sys2Proof/Machine/Step.lean ====
section
/-! DEFINITION. One step of the module: the next instruction or event that moves, and nothing else (R11, log entry 3). -/

namespace Sys2Proof.Machine

/-- ONE STEP. While every clock is stopped only management moves the module (R398). -/
def step (s : State) : Host.Outcome State Fault Refusal :=
  match if s.eft.clocks then s.next else s.stoppedMove with
  | some (i, t) => exec i t
  | none => .next s.idleStep

/-- The instruction of a table row's word stored where the next step takes it. -/
def State.withFetchWord (s : State) (nbits w : Nat) : State := s.placeWord nbits w

end Sys2Proof.Machine
end

