-- ==== Sys2Proof/Safety.lean ====
section
/-! DEFINITION. What a sound state is, and the words in which the statements speak of a step: what an S-word leaves, when an
S-word or an E-word acts at once, what an update leaves unchanged (R38, R44, R72, R85, R134, R141, R142, R177, R360). -/

namespace Sys2Proof.Safety

open Sys2Proof.Machine

/-- Every memory holds its canonical form (Sys2Proof.Machine.Mem). -/
def MemoriesWf (s : State) : Prop :=
  s.mem.wf resetByte = true ∧ s.host.wf zeroByte = true ∧ ∀ p ∈ s.cores, p.2.spad.wf zeroByte = true

/-- The memories, and those that a kept freeze image holds, are in canonical form (R329, R330). -/
def Sound (s : State) : Prop :=
  MemoriesWf s ∧ ∀ g ∈ s.images, g.pages.wf resetByte = true ∧ ∀ p ∈ g.cores, p.2.spad.wf zeroByte = true

/-- A step that neither faults nor is refused. -/
def Runs (s t : State) : Prop := step s = .next t

/-- Register r as an instruction reads it: x0 is 0 (R44). -/
def readX (s : State) (r : Reg) : Word := if r = 0 then 0 else s.hart.ctx.x[r]

/-- Scalar register r as a word that can be poisoned (R360). -/
def xWord (r : Reg) : RegWord := { kind := 4, num := r.val, word := 0 }

/-- Scalar register r holds a poisoned word. -/
def XPoisoned (s : State) (r : Reg) : Prop := xWord r ∈ s.hart.ctx.poison

/-- None of some scalar registers holds a poisoned word. -/
def CleanX (s : State) (rs : List Reg) : Prop := ∀ r ∈ rs, ¬ XPoisoned s r

/-- The state in which one S-word of the front end in view has retired: the PC is `pc`, xd holds `v` unless it is x0, poisoned where
a register of `srcs` is, the S-words of ICNT count it at user level, and nothing else changed (R44, R72, R354). That a result from a
poisoned scalar register is poisoned is the model's choice (log entry 68). -/
def retired (s : State) (pc : Word) (d : Reg) (v : Word) (srcs : List Reg := []) : State :=
  { s with hart := { s.hart with ctx := { s.hart.ctx with
      pc := pc
      x := if d = 0 then s.hart.ctx.x else s.hart.ctx.x.set d v
      poison := if d = 0 then s.hart.ctx.poison
        else s.hart.ctx.poison.filter (· != xWord d) ++ if srcs.any fun r => s.hart.ctx.poison.contains (xWord r) then [xWord d] else []
      sCount := s.hart.ctx.sCount + (if s.hart.level = .user then 1 else 0) } } }

/-- The state after an S-word whose only effect is the value of xd, computed from the registers of `srcs`. -/
def wroteX (s : State) (d : Reg) (v : Word) (srcs : List Reg := []) : State := retired s (s.hart.ctx.pc + 4) d v srcs

/-- The state after an S-word that writes no register and goes on at `pc`. -/
def wentTo (s : State) (pc : Word) : State := retired s pc 0 0

/-- No block in flight, no strip open and no pending store: an S-word acts at once (R38, R109, R177). -/
structure Calm (s : State) : Prop where
  blocks : s.hart.blocks = []
  pend : s.hart.pend = []
  strip : s.hart.ctx.strip = none

/-- E-word i, whose fields are w, is the next word of block b, the oldest one in flight: the checking points before it are
passed, no copy is due in a register it names, its fields are legal, its stage guard lets it act, no snapshot entry that it reads
is poisoned, and no fault that it has found waits (R41, R142, R147, R250, R356, R360). -/
structure AtWord (i : Instr) (p : Shape) (w : EWord) (b : Block) (s : State) : Prop where
  block : s.hart.blocks.head? = some b
  shape : shapeOf i = some (p, w)
  checked : s.hart.unchecked = []
  landed : s.regBusy p w = false
  fields : shapeOk p w = true
  legal : s.eLegal b i p w = true
  guard : w.sg = 0 ∨ bit b.p (w.sg.toNat - 1) = true
  entries : b.entryPoison i w = none
  raise : b.raise = none

/-- No register word is poisoned (R360). -/
def Clean (s : State) : Prop := s.hart.ctx.poison = []

/-- Only the front end in view differs. -/
def OnlyHart (s t : State) : Prop := t = { s with hart := t.hart }

/-- Only the front end in view differs, and the answers to token reads gathered for it are gone: a trap was taken there (R253, R298). -/
def OnlyTrap (s t : State) : Prop := t = { s.forget with hart := t.hart }

/-- The trap of a poisoned scalar register that an S-word may not pass on: POISON with the register in its value (R360; that it is raised
is the model's choice, log entry 68). -/
def poisoned (r : Reg) : Trap := { cause := .poison, val := word (0xFF * 2 ^ 56 + 4 * 2 ^ 48 + r.val) }

/-- A trap was taken at an S-word of the front end in view with no strip open: the record of R298, the bits of SSTATUS, the
level and the PC; memory, the registers and everything else are as they were (R294, R295, R298). -/
structure TrapTaken (s t : State) (cause : Cause) (val val2 sepc bad : Word) : Prop where
  only : OnlyTrap s t
  ctx : t.hart.ctx = { s.hart.ctx with pc := s.hart.stvec &&& 0x01FFFFFFFFFFFFFC, sCount := t.hart.ctx.sCount }
  sepc : t.hart.sepc = sepc
  scause : t.hart.scause = word (causeCode cause)
  stval : t.hart.stval = val
  stval2 : t.hart.stval2 = val2
  sblka : t.hart.sblka = 0
  sword : t.hart.sword = bad
  level : t.hart.level = if s.hart.level = .firmware then .firmware else .supervisor
  run : t.hart.run = .running
  scratch : t.hart.sscratch = s.hart.sscratch
  stvec : t.hart.stvec = s.hart.stvec
  status : ∀ k < 64, statusBit t.hart.sstatus k =
    if k = 63 then true
    else if k = 62 then s.hart.level != .user
    else if k = 61 then s.hart.occ == none && !s.isFw
    else if k = 59 then false
    else if k = 54 then statusBit s.hart.sstatus k || s.hart.preemptReq
    else statusBit s.hart.sstatus k

/-- The front end in view may take a trap: it is not a handler with INTRAP = 1 (R298). -/
def MayTrap (s : State) : Prop := s.hart.level = .user ∨ statusBit s.hart.sstatus inTrapBit = false

/-- Every byte of every memory reads as before. -/
def SameBytes (s t : State) : Prop := ∀ l : Loc, t.byteAt l = s.byteAt l

/-- An address where a store is nothing but its bytes: no part of the partition control area, the core map, the BIND table, the port
entries or the health table, no byte of a DRAINED partition's fault record, and none with the SLOT of a queue that is slotted or linked (R4,
R5, R311, R341, R342, R347, R379, R385). -/
def Ordinary (s : State) (l : Loc) : Prop :=
  match l with
  | .dev a =>
    pcaField a = none ∧ portField a = none ∧ ¬ (Config.controlBase + 0x400 ≤ a ∧ a < Config.controlBase + 0x400 + Config.cores) ∧
    ¬ (Config.fabricBase + 0x2000 ≤ a ∧ a < Config.fabricBase + 0x2800) ∧
    ¬ (Config.healthBase ≤ a ∧ a < Config.healthBase + Config.healthBytes) ∧
    s.inFaultRecord l = false ∧ (a % 256 = 15 → s.holdsSlot l = false)
  | _ => True

/-- A place where a store is nothing but its bytes: so is every address whose bytes are stored in the same place, since a replaced frame
shares them with its replacement (R370). -/
def Plain (s : State) (l : Loc) : Prop := ∀ e, s.storage e = s.storage l → Ordinary s e

/-- No two bytes of the control area are stored in one place (R341, R370). -/
def Apart (s : State) : Prop := ∀ a b : Nat, a < 0x200000 → b < 0x200000 → s.storage (.dev a) = s.storage (.dev b) → a = b

/-- No lease and no pinned line holds a store to these places back (R233, R336). -/
def Unheld (s : State) (ls : List Loc) : Prop := ∀ l ∈ ls, s.leased l = false ∧ s.pinned l = false

/-- Closing an open strip leads from s to u: earlier blocks have reached VSTOP, pending stores are committed, and no strip is
open (R177). -/
def Closes (s u : State) : Prop := s.closeStrip = .ok u

/-- No store that the coroutine in view has committed to the device's own EID is still on its way to these places (R105, R106). -/
def NoLoops (s : State) (ls : List Loc) : Prop := s.loopAhead ls = false

/-- The places may take a store that is nothing but its bytes. -/
structure Storable (s : State) (ls : List Loc) : Prop where
  wf : MemoriesWf s
  once : (ls.map s.storage).Nodup
  plain : ∀ l ∈ ls, Plain s l
  free : Unheld s ls
  turn : NoLoops s ls

/-- No remote store of the agent in view to the device's own EID is buffered, queued or unacknowledged (R105, R106). -/
def NothingLoops (s : State) : Prop :=
  s.combFor s.fabric.eid = false ∧ s.storeQueued s.fabric.eid = false ∧
    ∀ r ∈ s.fabric.sent, r.ep = s.fabric.eid → r.cid = s.cid → ∀ k g n u, r.cont = .store k g n u → (g, n) ≠ s.own

/-- No partition is DRAINED and no run list has a queue, so that no store to plain memory makes another place one of a fault record or of
a queue (R311, R347). -/
def NoRecords (s : State) : Prop :=
  (∀ p < 16, s.partState p ≠ 3) ∧ ∀ q < 4, (s.quad q).slots = [] ∧ ∀ h ∈ (s.quad q).rlhead.toList, h.toNat = 0

/-- The places hold the bytes, and every byte of every memory that is not stored in one of them reads as before (R370: a replaced frame
and its replacement share their bytes). -/
structure Stored (s t : State) (ls : List Loc) (bs : List Byte) : Prop where
  new : ∀ e ∈ ls.zip bs, t.byteAt e.1 = e.2
  old : ∀ l, s.storage l ∉ ls.map s.storage → t.byteAt l = s.byteAt l

/-- Every full/empty bit is as before. -/
def SameFull (s t : State) : Prop := ∀ l : Loc, t.fullAt l = s.fullAt l

/-- A release takes effect at once: no remote store of the agent in view is buffered, queued or unacknowledged (R113, R117). -/
def Released (s : State) : Prop := s.isFw = true ∨ (s.combined = false ∧ s.storesOut = false)

/-- An instruction that acts for a coroutine may act: on a hart that runs one, and on a firmware core unless `fwToo` (R291,
R323). -/
def MayAct (s : State) (fwToo : Bool) : Prop := (s.isFw = true ∧ fwToo = false) ∨ (s.isFw = false ∧ s.hart.occ ≠ none)

/-- The agent in view is hart h of core cid and runs coroutine (g, n) at user level. -/
structure Runner (s : State) (cid h g n : Nat) : Prop where
  focus : s.focus = .hart cid h
  occ : s.hart.occ = some (g, n)
  user : s.hart.level = .user

/-- u units for an endpoint are held, the device does not hold its own allowance there at zero, and no request waits for units (R34,
R35, R37). -/
def HasUnits (s : State) (ep u : Nat) : Prop := s.fabric.waits = [] ∧ u ≤ s.fabric.unitsFor ep ∧ s.fabric.heldSelf ep = false

/-- No store of the agent in view to an endpoint is buffered or queued, and none to these n bytes of it is unacknowledged (R106, R113,
R114; log entry 87). -/
def NoOwnStores (s : State) (ep a n : Nat) : Prop :=
  s.isFw = true ∨
    (let as := (List.range n).map fun i => (a + i) % 2 ^ 64
     s.combFor ep = false ∧ s.storeInFlight ep as = false ∧ s.storeQueued ep = false)

/-- The context cache of core cid has room for the record of coroutine (g, n) with the registers of the hart in view and a live mask
(R27, R29, R58). -/
def CacheRoom (s : State) (cid g n live : Nat) (tiles : Bool) : Prop :=
  (s.onCoro cid g n fun k =>
    { k with running := false, resident := true, live := live, msave := tiles, kc := (s.core cid).kc
             ctx := s.hart.ctx.trim live tiles }).overFull cid = false

/-- The context cache of core cid has room for the record of a new coroutine with VCFG.VN = vn (R21, R29, R58). -/
def SlotFree (s : State) (cid vn : Nat) : Prop :=
  let c := s.core cid
  c.cached.length + (s.lazies cid).length < Config.residentSlots ∧
  (c.cached.map (·.recordBytes c.kc)).sum + (s.lazies cid).sum + recordSize vn c.kc 0 false ≤ Config.cacheBytes

/-- The coroutine that s runs has been set aside: its hart is idle, and its record waits with the registers of s at the PC it
had, a vector register outside the live mask as zero (R26, R27). -/
structure SetAside (s t : State) (cid g n : Nat) (w : WaitFor) (met : Bool) (live : Nat) (pc : Word) : Prop where
  idle : t.hart.run = .idle ∧ t.hart.occ = none ∧ t.hart.level = .user ∧ t.hart.ctx = Ctx.fresh 0
  record_ : ∃ k, (t.core cid).coro g n = some k ∧ k.running = false ∧ k.met = met ∧ k.wait = w ∧ k.live = live ∧
    k.ctx.pc = pc ∧ k.ctx.x = s.hart.ctx.x ∧ k.ctx.k = s.hart.ctx.k ∧ k.ctx.vl = s.hart.ctx.vl ∧ k.ctx.tl = s.hart.ctx.tl ∧
    (∀ r : BitVec 6, k.ctx.vreg r = if bit live r.toNat then s.hart.ctx.vreg r else 0)

/-- A request has been sent and is remembered with what its answer does: it has the next request number. One for the device itself loops
back; another leaves over the port that takes it, waits for one, or is refused where none is in RUN (R82, R374, R377, R384). -/
structure Asked (s t : State) (ep : Nat) (op : ReqOp) (cont : Cont) : Prop where
  sent : ∃ r, t.fabric.sent = s.fabric.sent ++ [r] ∧ r.rid = s.fabric.nextRid ∧ r.ep = ep ∧ r.cid = s.cid ∧ r.op = op ∧ r.cont = cont
  next : t.fabric.nextRid = s.fabric.nextRid + 1
  leaves : ep ≠ s.fabric.eid → ∀ i, s.wayOut = .port i → ∃ r, t.fabric.sent = s.fabric.sent ++ [r] ∧
    t.fabric.out = s.fabric.out ++ [.request i r.rid ep r.part r.cid r.seq op]
  waits : ep ≠ s.fabric.eid → s.wayOut = .queued → t.fabric.out = s.fabric.out
  lost : ep ≠ s.fabric.eid → s.wayOut = .lost → t.fabric.out = s.fabric.out ∧
    t.agenda = s.agenda ++ [.event (.remoteNack s.fabric.nextRid)]
  loops : ep = s.fabric.eid → t.fabric.out = s.fabric.out ∧ ∃ q, t.agenda = s.agenda ++ [.event (.remoteRequest q)] ∧ q.op = op ∧
    q.sep = ep ∧ q.rid = s.fabric.nextRid

/-- An E-word of block b has completed: the block goes on at its next word, VSTART is 0 if `clears`, the flags are ORed into
FCSR, ICNT counts a user-level E-word, and outside the registers only the checking point that is now due has changed (R52, R72,
R74, R142, R355). -/
structure WordDone (s t : State) (b : Block) (clears : Bool) (flags : Nat) : Prop where
  only : OnlyHart s t
  hart : t.hart = { s.hart with
    ctx := t.hart.ctx, rho := t.hart.rho, unchecked := t.hart.unchecked, pend := t.hart.pend
    blocks := { b with idx := b.idx + 1 } :: s.hart.blocks.tail }
  ctx : t.hart.ctx = { s.hart.ctx with
    x := t.hart.ctx.x, k := t.hart.ctx.k, v := t.hart.ctx.v, t := t.hart.ctx.t, bl := t.hart.ctx.bl, m := t.hart.ctx.m
    fmask := t.hart.ctx.fmask, racc := t.hart.ctx.racc, rstat := t.hart.ctx.rstat, poison := t.hart.ctx.poison
    vstart := if clears then 0 else s.hart.ctx.vstart
    fcsr := s.hart.ctx.fcsr ||| word (flags % 64)
    eCount := s.hart.ctx.eCount + flag b.user }

/-- The register state beside x, k, v, tiles, latch and FCSR is untouched by an E-word. -/
structure KeepsCtx (s t : State) : Prop where
  fmask : t.hart.ctx.fmask = s.hart.ctx.fmask
  racc : t.hart.ctx.racc = s.hart.ctx.racc
  rstat : t.hart.ctx.rstat = s.hart.ctx.rstat
  mode : t.hart.ctx.m = s.hart.ctx.m
  poison : t.hart.ctx.poison = s.hart.ctx.poison

/-- That state and the pending stores are untouched. -/
def KeepsRest (s t : State) : Prop := KeepsCtx s t ∧ t.hart.pend = s.hart.pend

/-- Tiles and latch are untouched. -/
def KeepsTiles (s t : State) : Prop := t.hart.ctx.t = s.hart.ctx.t ∧ t.hart.ctx.bl = s.hart.ctx.bl

/-- Only elements of vd changed among the vectors: those in `on`, to `val`; masks, scalars, tiles and latch are untouched
(R48, R49, R185). -/
structure WroteV (s t : State) (vd : BitVec 6) (width : Nat) (on : Nat → Bool) (val : Nat → Nat) : Prop where
  elems : ∀ e, elem (t.hart.ctx.vreg vd) width e = if on e then val e % 2 ^ width else elem (s.hart.ctx.vreg vd) width e
  others : ∀ r : BitVec 6, r ≠ vd → t.hart.ctx.vreg r = s.hart.ctx.vreg r
  xs : t.hart.ctx.x = s.hart.ctx.x
  ks : t.hart.ctx.k = s.hart.ctx.k
  tiles : KeepsTiles s t

/-- Only mask kd changed: its bits in `on` to `val`, its bits from `vl` on to 0 (R48, R49). -/
structure WroteK (s t : State) (kd vl : Nat) (on val : Nat → Bool) : Prop where
  bits_ : ∀ e, bit (t.hart.ctx.kreg kd) e = if e < vl then (if on e then val e else bit (s.hart.ctx.kreg kd) e) else false
  others : ∀ n, n ≠ kd → t.hart.ctx.kreg n = s.hart.ctx.kreg n
  xs : t.hart.ctx.x = s.hart.ctx.x
  vs : t.hart.ctx.v = s.hart.ctx.v
  tiles : KeepsTiles s t

/-- Only elements of tile td changed: those in `on`, to `val` (R229, R231). -/
structure WroteT (s t : State) (td : BitVec 6) (width : Nat) (on : Nat → Bool) (val : Nat → Nat) : Prop where
  elems : ∀ e, elem (t.hart.ctx.treg td.toNat) width e =
    if on e then val e % 2 ^ width else elem (s.hart.ctx.treg td.toNat) width e
  others : ∀ n, n ≠ td.toNat → t.hart.ctx.treg n = s.hart.ctx.treg n
  xs : t.hart.ctx.x = s.hart.ctx.x
  ks : t.hart.ctx.k = s.hart.ctx.k
  vs : t.hart.ctx.v = s.hart.ctx.v
  latch : t.hart.ctx.bl = s.hart.ctx.bl

/-- No register changed. -/
def KeepsRegs (s t : State) : Prop :=
  t.hart.ctx.x = s.hart.ctx.x ∧ t.hart.ctx.k = s.hart.ctx.k ∧ t.hart.ctx.v = s.hart.ctx.v ∧ KeepsTiles s t

/-- The active elements below VL of an E-word of block b (R48, R185). -/
def acts (s : State) (b : Block) (w : EWord) (e : Nat) : Bool := decide (e < b.vl) && s.hart.ctx.active w e

/-- The active elements below VL, in order. -/
def actList (s : State) (b : Block) (w : EWord) : List Nat := (List.range b.vl).filter (acts s b w)

/-- Element e of va, k bits wide (R146). -/
def opA (s : State) (w : EWord) (k e : Nat) : Nat := elem (s.hart.ctx.vreg w.va) k e

/-- Element e of operand b: of vb, or the snapshot entry (R45, R146). -/
def opB (s : State) (b : Block) (w : EWord) (k e : Nat) : Nat :=
  if w.xs then (b.snap.getD (w.vb.toNat % 16) 0).toNat % 2 ^ k else elem (s.hart.ctx.vreg w.vb) k e

/-- Element e of vc. -/
def opC (s : State) (w : EWord) (k e : Nat) : Nat := elem (s.hart.ctx.vreg w.vc) k e

/-- The integer an element of a type stands for (R63). -/
def intOf (t : EType) (x : Nat) : Int := if isSigned t then (BitVec.ofNat (etypeBits t) x).toInt else (x : Int)

/-- The OR of some flags (R74). -/
def orAll (l : List Nat) : Nat := l.foldl (fun a b => a ||| b) 0

/-- Only scalar register d (of the low 32 numbers) changed, to v, and none for x0 (R187). -/
structure WroteS (s t : State) (d : Nat) (v : Word) : Prop where
  reg : t.hart.ctx.x = if d % 32 = 0 then s.hart.ctx.x else s.hart.ctx.x.set (d % 32) v (Nat.mod_lt d (by decide))
  vs : t.hart.ctx.v = s.hart.ctx.v
  ks : t.hart.ctx.k = s.hart.ctx.k
  tiles : KeepsTiles s t

/-- A trap was taken at the next E-word of block b with no strip open: the block and those behind it are suspended behind those
suspended before, and the record names the block and the word (R142, R298, R299). -/
structure EWordTaken (s t : State) (b : Block) (cause : Cause) (val val2 bad : Word) : Prop where
  only : OnlyTrap s t
  ctx : t.hart.ctx = { s.hart.ctx with pc := s.hart.stvec &&& 0x01FFFFFFFFFFFFFC }
  suspended : t.hart.suspended = s.hart.suspended ++ { b with vstart := s.hart.ctx.vstart, raise := none } :: s.hart.blocks.tail
  blocks : t.hart.blocks = []
  sepc : t.hart.sepc = s.hart.ctx.pc
  scause : t.hart.scause = word (2 ^ 61 + b.idx % 64 * 2 ^ 54 + causeCode cause)
  stval : t.hart.stval = val
  stval2 : t.hart.stval2 = val2
  sblka : t.hart.sblka = b.addr
  sword : t.hart.sword = bad
  level : t.hart.level = if s.hart.level = .firmware then .firmware else .supervisor
  inTrap : statusBit t.hart.sstatus 63 = true

/-- No strip is open and no store is pending. -/
def NoStrip (s : State) : Prop := s.hart.ctx.strip = none ∧ s.hart.pend = []

end Sys2Proof.Safety
end

