-- ==== Sys2Proof/Certificates/Slice0/Obligations.lean ====
section
/-! DEFINITION. The statements for the provers: what the instructions and events of the module do, what they leave alone,
and what holds of every step. Each cites its rules of spec/ in OBLIGATIONS.json. -/

open Sys2Proof Sys2Proof.Machine Sys2Proof.Safety

/-- The integer S-words complete with the values of the operation tables and change nothing else (R162, R163, R164).
That a result computed from a poisoned register is marked poisoned is the model's choice (log entry 68). -/
def Obligations.IntegerWords : Prop :=
  ∀ (s : State) (d a b : Reg) (im : BitVec 15) (sh : BitVec 6) (up : BitVec 20),
    let x := readX s a
    let y := readX s b
    let i := im.signExtend 64
    let m := y.toNat % 64
    exec (.add d a b) s = .next (wroteX s d (x + y) [a, b]) ∧
    exec (.sub d a b) s = .next (wroteX s d (x - y) [a, b]) ∧
    exec (.mul d a b) s = .next (wroteX s d (BitVec.ofInt 64 (x.toInt * y.toInt)) [a, b]) ∧
    exec (.mulh d a b) s = .next (wroteX s d (BitVec.ofInt 64 (x.toInt * y.toInt / 2 ^ 64)) [a, b]) ∧
    exec (.mulhn d a b) s = .next (wroteX s d (BitVec.ofNat 64 (x.toNat * y.toNat / 2 ^ 64)) [a, b]) ∧
    exec (.div d a b) s = .next (wroteX s d (
      if y.toInt = 0 then BitVec.ofNat 64 (2 ^ 64 - 1)
      else if x.toInt = -2 ^ 63 ∧ y.toInt = -1 then BitVec.ofNat 64 (2 ^ 63)
      else BitVec.ofInt 64 (Int.tdiv x.toInt y.toInt)) [a, b]) ∧
    exec (.rem d a b) s = .next (wroteX s d (
      if y.toInt = 0 then x
      else if x.toInt = -2 ^ 63 ∧ y.toInt = -1 then 0
      else BitVec.ofInt 64 (x.toInt - y.toInt * Int.tdiv x.toInt y.toInt)) [a, b]) ∧
    exec (.divn d a b) s = .next (wroteX s d (
      if y.toNat = 0 then BitVec.ofNat 64 (2 ^ 64 - 1) else BitVec.ofNat 64 (x.toNat / y.toNat)) [a, b]) ∧
    exec (.remn d a b) s = .next (wroteX s d (if y.toNat = 0 then x else BitVec.ofNat 64 (x.toNat % y.toNat)) [a, b]) ∧
    exec (.and d a b) s = .next (wroteX s d (x &&& y) [a, b]) ∧
    exec (.or d a b) s = .next (wroteX s d (x ||| y) [a, b]) ∧
    exec (.xor d a b) s = .next (wroteX s d (x ^^^ y) [a, b]) ∧
    exec (.sll d a b) s = .next (wroteX s d (BitVec.ofNat 64 (x.toNat * 2 ^ m)) [a, b]) ∧
    exec (.srl d a b) s = .next (wroteX s d (BitVec.ofNat 64 (x.toNat / 2 ^ m)) [a, b]) ∧
    exec (.sra d a b) s = .next (wroteX s d (BitVec.ofInt 64 (x.toInt / 2 ^ m)) [a, b]) ∧
    exec (.slli d a sh) s = .next (wroteX s d (BitVec.ofNat 64 (x.toNat * 2 ^ sh.toNat)) [a]) ∧
    exec (.srli d a sh) s = .next (wroteX s d (BitVec.ofNat 64 (x.toNat / 2 ^ sh.toNat)) [a]) ∧
    exec (.srai d a sh) s = .next (wroteX s d (BitVec.ofInt 64 (x.toInt / 2 ^ sh.toNat)) [a]) ∧
    exec (.slt d a b) s = .next (wroteX s d (if x.toInt < y.toInt then 1 else 0) [a, b]) ∧
    exec (.sltn d a b) s = .next (wroteX s d (if x.toNat < y.toNat then 1 else 0) [a, b]) ∧
    exec (.min d a b) s = .next (wroteX s d (BitVec.ofInt 64 (min x.toInt y.toInt)) [a, b]) ∧
    exec (.max d a b) s = .next (wroteX s d (BitVec.ofInt 64 (max x.toInt y.toInt)) [a, b]) ∧
    exec (.minn d a b) s = .next (wroteX s d (BitVec.ofNat 64 (min x.toNat y.toNat)) [a, b]) ∧
    exec (.maxn d a b) s = .next (wroteX s d (BitVec.ofNat 64 (max x.toNat y.toNat)) [a, b]) ∧
    exec (.clz d a) s = .next (wroteX s d (BitVec.ofNat 64 (
      ((List.range 64).find? fun k => x.getLsbD (63 - k)).getD 64)) [a]) ∧
    exec (.ctz d a) s = .next (wroteX s d (BitVec.ofNat 64 (
      ((List.range 64).find? fun k => x.getLsbD k).getD 64)) [a]) ∧
    exec (.popc d a) s = .next (wroteX s d (BitVec.ofNat 64 ((List.range 64).countP fun k => x.getLsbD k)) [a]) ∧
    exec (.addi d a im) s = .next (wroteX s d (x + i) [a]) ∧
    exec (.andi d a im) s = .next (wroteX s d (x &&& i) [a]) ∧
    exec (.ori d a im) s = .next (wroteX s d (x ||| i) [a]) ∧
    exec (.xori d a im) s = .next (wroteX s d (x ^^^ i) [a]) ∧
    exec (.slti d a im) s = .next (wroteX s d (if x.toInt < i.toInt then 1 else 0) [a]) ∧
    exec (.lui d up) s = .next (wroteX s d (BitVec.ofInt 64 (up.toInt * 2 ^ 15))) ∧
    exec (.aipc d up) s = .next (wroteX s d (BitVec.ofInt 64 (s.hart.ctx.pc.toNat + up.toInt * 2 ^ 15)))

/-- A branch goes to PC + offset * 4 when its condition holds, BSA when SAg is at least xb, else to PC + 4; JAL and JALR
link (R171, R172, R264). Model choices: SWORD = 0 of MISALIGNED and POISON (log entry 39), and that a poisoned operand
raises POISON with the register in its value (log entry 68). -/
def Obligations.BranchesAndJumps : Prop :=
  (∀ (s : State) (d a b : Reg) (o : BitVec 15) (j : BitVec 20) (im : BitVec 15),
    let x := readX s a
    let y := readX s b
    let pc := s.hart.ctx.pc
    let dest := fun c : Prop => fun _ : Decidable c =>
      wentTo s (if c then BitVec.ofInt 64 (pc.toNat + o.toInt * 4) else pc + 4)
    let t := x + im.signExtend 64
    (CleanX s [a, b] →
      exec (.beq a b o) s = .next (dest (x = y) inferInstance) ∧
      exec (.bne a b o) s = .next (dest (x ≠ y) inferInstance) ∧
      exec (.blt a b o) s = .next (dest (x.toInt < y.toInt) inferInstance) ∧
      exec (.bge a b o) s = .next (dest (x.toInt ≥ y.toInt) inferInstance) ∧
      exec (.bltn a b o) s = .next (dest (x.toNat < y.toNat) inferInstance) ∧
      exec (.bgen a b o) s = .next (dest (x.toNat ≥ y.toNat) inferInstance)) ∧
    exec (.jal d j) s = .next (retired s (BitVec.ofInt 64 (pc.toNat + j.toInt * 4)) d (pc + 4)) ∧
    (CleanX s [a] → t.toNat % 4 = 0 → exec (.jalr d a im) s = .next (retired s t d (pc + 4))) ∧
    (CleanX s [a] → t.toNat % 4 ≠ 0 → s.hart.blocks = [] →
      exec (.jalr d a im) s = .next (s.swordTrap { cause := .misaligned, val := t })) ∧
    (XPoisoned s a → s.hart.blocks = [] →
      ∀ i ∈ [Instr.beq a b o, .bne a b o, .blt a b o, .bge a b o, .bltn a b o, .bgen a b o, .jalr d a im],
        exec i s = .next (s.swordTrap (poisoned a))) ∧
    (CleanX s [a] → XPoisoned s b → s.hart.blocks = [] →
      ∀ i ∈ [Instr.beq a b o, .bne a b o, .blt a b o, .bge a b o, .bltn a b o, .bgen a b o],
        exec i s = .next (s.swordTrap (poisoned b)))) ∧
  ((∀ (s : State) (g : Fin 16) (b : Reg) (o : BitVec 15),
    (¬ XPoisoned s b → exec (.bsa g b o) s = .next (wentTo s (if (readX s b).toNat ≤ s.groupUnits g.val then
      BitVec.ofInt 64 (s.hart.ctx.pc.toNat + o.toInt * 4) else s.hart.ctx.pc + 4))) ∧
    (XPoisoned s b → s.hart.blocks = [] → exec (.bsa g b o) s = .next (s.swordTrap (poisoned b)))) ∧
  decodeTableWord 32 0x3C338002 = some (.bsa 3 7 2))

/-- LOOPV counts xa down by VL, LOOPST opens and steps a pipelined loop, SETVL sets VL and opens a strip, SETTL sets TL
(R182, R184, R178, R180, R38, R46, R176). That a poisoned xa, or a VL set from one, raises POISON with the register in
the value is the model's choice (log entry 68); so is SWORD = 0 of these traps (log entry 39). That a poisoned xa marks
VL beside xd is the model's choice (log entry 68). That a poisoned xa marks TL beside xd is the model's choice (log
entry 68). -/
def Obligations.LoopsAndLengths : Prop :=
  ((∀ (s : State) (a : Reg) (o : BitVec 15), ¬ XPoisoned s a → vlMark ∉ s.hart.ctx.poison →
    let c := (readX s a).toNat - min (readX s a).toNat s.hart.ctx.vl
    let t := retired s (if c ≠ 0 then BitVec.ofInt 64 (s.hart.ctx.pc.toNat + o.toInt * 4) else s.hart.ctx.pc + 4) a (word c) [a]
    exec (.loopv a o) s = .next { t with hart := { t.hart with ctx := { t.hart.ctx with vl := min s.hart.ctx.vl c } } }) ∧
  (∀ (s : State) (a : Reg) (sv : BitVec 5) (o : BitVec 15), 1 ≤ sv.toNat → sv.toNat ≤ 4 →
    let lps := s.hart.ctx.lps.toNat
    let p := bits lps 3 0
    let sm1 := bits lps 5 4
    let left := bits lps 63 32
    let n := (readX s a).toNat
    let away := BitVec.ofInt 64 (s.hart.ctx.pc.toNat + o.toInt * 4)
    let go := fun (pc : Word) (left sm1 p : Nat) =>
      let t := wentTo s pc
      { t with hart := { t.hart with ctx := { t.hart.ctx with lps := word (left * 2 ^ 32 + sm1 * 16 + p) } } }
    (p = 0 → ¬ XPoisoned s a → 1 ≤ n → n ≤ 2 ^ 32 →
      exec (.loopst a sv o) s = .next (go (s.hart.ctx.pc + 4) (n - 1) (sv.toNat - 1) 1)) ∧
    (p = 0 → ¬ XPoisoned s a → n = 0 → exec (.loopst a sv o) s = .next (go away 0 (sv.toNat - 1) 0)) ∧
    (p = 0 → ¬ XPoisoned s a → n > 2 ^ 32 → s.hart.blocks = [] →
      exec (.loopst a sv o) s = .next (s.swordTrap { cause := .loopRange, val := word n })) ∧
    (p = 0 → XPoisoned s a → s.hart.blocks = [] → exec (.loopst a sv o) s = .next (s.swordTrap (poisoned a))) ∧
    (p ≠ 0 →
      let q := (p * 2 + (if left > 0 then 1 else 0)) % 2 ^ (sm1 + 1)
      exec (.loopst a sv o) s = .next (go (if q = 0 then away else s.hart.ctx.pc + 4) (left - 1) sm1 q))) ∧
  (∀ (s : State) (a : Reg) (o : BitVec 15), s.hart.blocks = [] →
    (XPoisoned s a → exec (.loopv a o) s = .next (s.swordTrap (poisoned a))) ∧
    (¬ XPoisoned s a → vlMark ∈ s.hart.ctx.poison →
      exec (.loopv a o) s = .next (s.swordTrap { cause := .poison, val := word (0xFF * 2 ^ 56 + 7 * 2 ^ 48) })))) ∧
  (∀ (s : State) (d a : Reg) (w : BitVec 3), Calm s → w.toNat ≤ 4 →
    let size := match w.toNat with | 0 => 32 | 1 => 64 | 2 => 16 | 3 => 8 | _ => 4
    let vl := min (readX s a).toNat (s.vbytes * 8 / size)
    let u := wroteX s d (word vl) [a]
    let c := u.hart.ctx
    let marks := c.poison.filter (· != vlMark) ++ if s.hart.ctx.poison.contains (xWord a) then [vlMark] else []
    exec (.setvl d a w) s = .next { u with hart := { u.hart with ctx := { c with
      vl := vl, vstart := 0, poison := marks
      strip := some { pc := s.hart.ctx.pc + 4, x := c.x, k := c.k, vl := vl, tl := c.tl, lps := c.lps, fmask := c.fmask,
                      vstart := 0, flags := c.fcsr &&& 0x3F, sCount := c.sCount, eCount := c.eCount
                      poison := marks.filter fun r => r.kind == 1 || r.kind == 4 || r.kind == 7 } } } }) ∧
  ((∀ (s : State) (d a : Reg),
    let tl := min (readX s a).toNat s.rows
    let m := { s with hart := { s.hart with ctx := { s.hart.ctx with
      poison := s.hart.ctx.poison.filter (· != tlMark) ++ if s.hart.ctx.poison.contains (xWord a) then [tlMark] else [] } } }
    let u := wroteX m d (word tl) [a]
    exec (.settl d a) s = .next { u with hart := { u.hart with ctx := { u.hart.ctx with tl := tl } } }) ∧
  (∀ (h : Hart) (k : Checkpoint), h.ctx.strip = some k → h.restart.ctx.tl = k.tl) ∧
  (∀ (c : Ctx) (pc : Word), (c.checkpoint pc).tl = c.tl))

/-- Scalar floating-point words write their one result and OR their flags into FCSR; none faults (R166, R167, R168,
R169, R170, R74). That a result computed from a poisoned register is marked poisoned is the model's choice (log entry
68). -/
def Obligations.ScalarFloats : Prop :=
  ∀ (s : State) (d a b c : Reg) (r : BitVec 3) (z : Bool) (cc : BitVec 2),
    let t := if z then EType.f32 else EType.f64
    let other := if z then EType.f64 else EType.f32
    let mode := if r.toNat = 7 then bits s.hart.ctx.fcsr.toNat 14 12 else r.toNat
    let v : FpEnv := { rm := if mode = 5 then 0 else mode, daz := s.hart.ctx.fcsr.getLsbD 9, ftz := s.hart.ctx.fcsr.getLsbD 8, rnd := 0 }
    let raw := fun (e : EType) (q : Reg) => (readX s q).toNat % 2 ^ etypeBits e
    let x := fun q => fread t v.daz (raw t q)
    let done := fun (srcs : List Reg) (f : Flagged) =>
      let u := wroteX s d (word f.1) srcs
      Host.Outcome.next (φ := Fault) (ρ := Refusal)
        { u with hart := { u.hart with ctx := { u.hart.ctx with fcsr := s.hart.ctx.fcsr ||| word (f.2 % 64) } } }
    let cmp := fun (k : Nat) => fcompare k (x a) (x b)
    (fpRound r = true →
      exec (.fadd d a b r z) s = done [a, b] (fadd t v (x a) (x b)) ∧
      exec (.fsub d a b r z) s = done [a, b] (fadd t v (x a) (x b).neg) ∧
      exec (.fmul d a b r z) s = done [a, b] (fmul t v (x a) (x b)) ∧
      exec (.fdiv d a b r z) s = done [a, b] (fdiv t v (x a) (x b)) ∧
      exec (.fsqrt d a r z) s = done [a] (fsqrt t v (x a)) ∧
      exec (.fma d a b c r z) s = done [a, b, c] (ffma t v (x a) (x b) (x c)) ∧
      (cc = 0 → exec (.fcvt d a r z cc) s = done [a] (convert other t v false (raw other a))) ∧
      (cc = 1 → exec (.fcvt d a r z cc) s = done [a] (convert .i64 t v false (raw .i64 a))) ∧
      (cc = 2 → exec (.fcvt d a r z cc) s = done [a] (convert .n64 t v false (raw .n64 a))) ∧
      (cc = 1 → exec (.fcvtToInt d a r z cc) s = done [a] (convert t .i64 v false (raw t a))) ∧
      (cc = 2 → exec (.fcvtToInt d a r z cc) s = done [a] (convert t .n64 v false (raw t a)))) ∧
    exec (.fmin d a b z) s = done [a, b] (fselect t v.daz false (raw t a) (raw t b)) ∧
    exec (.fmax d a b z) s = done [a, b] (fselect t v.daz true (raw t a) (raw t b)) ∧
    (cc = 0 → exec (.fcmp d a b z cc) s = done [a, b] (flag (cmp 0).1, (cmp 0).2)) ∧
    (cc = 1 → exec (.fcmp d a b z cc) s = done [a, b] (flag (cmp 2).1, (cmp 2).2)) ∧
    (cc = 2 → exec (.fcmp d a b z cc) s = done [a, b] (flag (cmp 3).1, (cmp 3).2)) ∧
    (cc = 3 → exec (.fcmp d a b z cc) s =
      done [a, b] (flag ((x a).isNan || (x b).isNan), if (x a).signals || (x b).signals then 16 else 0))

/-- ILLEGAL, PRIV_INSN, PRIV_CSR and fetch faults are taken at their word with no other effect; a trap in a handler with
INTRAP = 1 stops the hart (R135, R138, R147, R148, R166, R174, R175, R291, R298, R299, R323, R327). That SWORD is 0 for
PRIV_CSR, and SBLKA outside a block, is the model's choice (log entries 39, 65). That SWORD is 0 for PRIV_INSN and for a
failed fetch is the model's choice (log entry 39). -/
def Obligations.IllegalWords : Prop :=
  (∀ (s : State) (d a b c : Reg) (r : BitVec 3) (z q g : Bool) (cc : BitVec 2) (p : BitVec 4) (k : BitVec 3) (n v : BitVec 6)
    (y : BitVec 8) (f : BitVec 5) (o : BitVec 15), Calm s → MayTrap s →
    let rm := r.toNat = 5 ∨ r.toNat = 6
    ∀ e ∈ [(Instr.fadd d a b r z, rm), (.fsub d a b r z, rm), (.fmul d a b r z, rm), (.fdiv d a b r z, rm), (.fsqrt d a r z, rm),
        (.fma d a b c r z, rm), (.fcvt d a r z cc, rm ∨ cc = 3), (.fcvtToInt d a r z cc, rm ∨ cc = 0 ∨ cc = 3),
        (.loopst a f o, f.toNat = 0 ∨ 4 < f.toNat), (.setvl d a r, 4 < r.toNat),
        (.fenceRel r, 4 < r.toNat), (.fenceAcq r, 4 < r.toNat), (.fenceAr r, 4 < r.toNat), (.fenceSc r, 4 < r.toNat),
        (.cpG d a v z q k, k = 0 ∧ q = true), (.cpS d a v z q k, k = 0 ∧ q = true),
        (.ratom d a b cc z p, 9 < p.toNat ∨ (p = 9 ∧ b.val = 31)),
        (.amo d a b r cc z p, 9 < p.toNat ∨ (p = 9 ∧ b.val = 31) ∨ 4 < r.toNat ∨ (cc = 0 ∧ r ≠ 0)),
        (.msend a b cc y, 0xF0 ≤ y.toNat), (.awaitany d a b n z g, 32 < n.toNat ∨ (n = 0 ∧ z = false)),
        (.galloc d a f, f.toNat < 6 ∨ 21 < f.toNat), (.ldfe d a b z, z = false ∧ b ≠ 0), (.stfe d a b z, z = false ∧ b ≠ 0),
        (.feset a b z, z = false ∧ b ≠ 0), (.feclr a b z, z = false ∧ b ≠ 0)],
      e.2 → ∃ t w, encodeS e.1 = some w ∧ exec e.1 s = .next t ∧ TrapTaken s t .illegal 0 0 s.hart.ctx.pc (word w) ∧
        t.hart.ctx.sCount = s.hart.ctx.sCount ∧ SameBytes s t) ∧
  ((∀ (s : State) (d a b : Reg) (n v : BitVec 5) (m : BitVec 6) (z g : Bool) (u : BitVec 2) (y : BitVec 8), Calm s → MayTrap s →
    s.isFw = true ∨ s.hart.occ = none →
    ∀ e ∈ [(Instr.spawn d a n, True), (.yield, True), (.cexit, True), (.galloc d a v, True), (.gfree a, True), (.gdecl d a, True),
        (.gstep a b, True), (.gwait a b, True), (.gdrop a, True), (.await a b g, s.isFw = false),
        (.awaitany d a b m z g, s.isFw = false), (.msend a b u y, s.isFw = true)],
      e.2 → ∃ t w, encodeS e.1 = some w ∧ exec e.1 s = .next t ∧ TrapTaken s t .illegal 0 0 s.hart.ctx.pc (word w) ∧
        t.hart.ctx.sCount = s.hart.ctx.sCount ∧ SameBytes s t) ∧
  (∀ (s : State) (i : Instr) (p : Shape) (w : EWord) (b : Block), NoStrip s → MayTrap s → s.hart.blocks.head? = some b →
    shapeOf i = some (p, w) → s.hart.unchecked = [] → s.regBusy p w = false → b.raise = none →
    shapeOk p w = false ∨ s.eLegal b i p w = false →
    ∃ t, exec i s = .next t ∧ EWordTaken s t b .illegal 0 0 (b.words.getD b.idx 0) ∧ SameBytes s t)) ∧
  (∀ (s : State) (d a : Reg) (c : BitVec 12), Calm s → s.hart.level = .user →
    ∀ i ∈ [Instr.csrr d c, .csrw a c, .csrs a c, .csrc a c],
      (0x100 ≤ c.toNat → ∃ t, exec i s = .next t ∧ TrapTaken s t .privCsr (word c.toNat) 0 s.hart.ctx.pc 0 ∧ SameBytes s t) ∧
      (c.toNat < 0x100 → userCsr c.toNat = false →
        ∃ t w, encodeS i = some w ∧ exec i s = .next t ∧ TrapTaken s t .illegal 0 0 s.hart.ctx.pc (word w) ∧ SameBytes s t)) ∧
  (∀ s : State, Calm s → s.hart.level = .user → ∀ i ∈ [Instr.eret, .wfm],
    ∃ t, exec i s = .next t ∧ TrapTaken s t .privInsn 0 0 s.hart.ctx.pc 0 ∧ SameBytes s t ∧
      t.hart.ctx.sCount = s.hart.ctx.sCount) ∧
  ((∀ (s : State) (x : BitVec 32), Calm s → MayTrap s →
    ∃ t, exec (.unallocatedOpcode (.sword x)) s = .next t ∧
      TrapTaken s t .illegal 0 0 s.hart.ctx.pc (x.zeroExtend 64) ∧ SameBytes s t ∧ t.hart.ctx.sCount = s.hart.ctx.sCount) ∧
  (∀ (s : State) (f : Trap), Calm s → MayTrap s → f.sub = 0 → f.cause ≠ .illegal →
    ∃ t, exec (.fetchFault f) s = .next t ∧
      TrapTaken s t f.cause f.val f.val2 s.hart.ctx.pc 0 ∧ SameBytes s t ∧ t.hart.ctx.sCount = s.hart.ctx.sCount) ∧
  (∀ (s : State) (b : Block) (x : Word), NoStrip s → MayTrap s → s.hart.unchecked = [] → s.hart.blocks.head? = some b →
    ∃ t, exec (.unallocatedOpcode (.eword x)) s = .next t ∧ EWordTaken s t b .illegal 0 0 x ∧ SameBytes s t) ∧
  (∀ (s : State) (b : Block) (f : Trap), NoStrip s → MayTrap s → s.hart.unchecked = [] → s.hart.blocks.head? = some b →
    b.words.length ≤ b.idx → f.sub = 0 → f.cause ≠ .illegal →
    ∃ t, exec (.fetchFault f) s = .next t ∧ EWordTaken s t b f.cause f.val f.val2 0 ∧ SameBytes s t)) ∧
  (∀ (s : State) (f : Trap) (w : TrapAt), s.hart.level ≠ .user → statusBit s.hart.sstatus 63 = true →
    let t := s.trapEntry f w
    t.hart = { s.hart with run := .stopped } ∧ SameBytes s t ∧
    (∀ cid h, s.focus = .hart cid h → cid < Config.cores → (s.quad (quadOf cid)).events.length < Config.maxEvents →
      (t.quad (quadOf cid)).events = (s.quad (quadOf cid)).events ++ [{ code := 6, arg := cid * 8 + h, arg2 := causeCode f.cause }]) ∧
    (∀ q, s.focus = .fw q → t.eft.alerts = s.eft.alerts ++ [.fwDoubleFault q (causeCode f.cause)]))

/-- Scalar loads write the loaded bytes, sign- or zero-extended, and change nothing else (R165, R3, R109). -/
def Obligations.ScalarLoads : Prop :=
  ∀ (s : State) (d a : Reg) (im : BitVec 15), s.hart.blocks = [] → ¬ XPoisoned s a →
    let at_ := (readX s a + im.signExtend 64).toNat
    ∀ (n : Nat) (p : Spot), s.locate s.view at_ n 1 false = .ok p → p.tiers = [] → (∀ l ∈ p.locs, s.seenBad l = false) → NoLoops s p.locs →
      let v := ofBytes (p.locs.map s.seen)
      let ext := fun w : Nat => (BitVec.ofNat w v).signExtend 64
      (n = 1 → exec (.ldB d a im) s = .next (wroteX s d (ext 8)) ∧ exec (.ldBn d a im) s = .next (wroteX s d (word v))) ∧
      (n = 2 → exec (.ldH d a im) s = .next (wroteX s d (ext 16)) ∧ exec (.ldHn d a im) s = .next (wroteX s d (word v))) ∧
      (n = 4 → exec (.ldW d a im) s = .next (wroteX s d (ext 32)) ∧ exec (.ldWn d a im) s = .next (wroteX s d (word v))) ∧
      (n = 8 → exec (.ldD d a im) s = .next (wroteX s d (word v)))

/-- Scalar stores write the low bytes of xd at A = xa + e and leave every other byte and register alone (R165, R103,
R39). -/
def Obligations.ScalarStores : Prop :=
  ∀ (s : State) (d a : Reg) (im : BitVec 15), Calm s → ¬ XPoisoned s a → ¬ XPoisoned s d →
    let at_ := (readX s a + im.signExtend 64).toNat
    ∀ (n : Nat) (p : Spot), s.locate s.view at_ n 1 true = .ok p → p.tiers = [] → Storable s p.locs →
      ∀ i, (n = 1 ∧ i = Instr.stB d a im) ∨ (n = 2 ∧ i = .stH d a im) ∨ (n = 4 ∧ i = .stW d a im) ∨ (n = 8 ∧ i = .stD d a im) →
        ∃ t, exec i s = .next t ∧
          Stored s t p.locs (bytesOf n (readX s d).toNat) ∧ SameFull s t ∧
          t.hart = (wentTo s (s.hart.ctx.pc + 4)).hart

/-- A scalar load or store whose access faults has no effect but the trap, which has the cause and values of the fault
found (R165, R84, R298). That SWORD and SBLKA are 0 for these causes is the model's choice (log entries 39, 65). -/
def Obligations.AccessFaults : Prop :=
  ∀ (s : State) (d a : Reg) (im : BitVec 15) (f : Trap), Calm s → MayTrap s → ¬ XPoisoned s a → f.sub = 0 →
    let at_ := (readX s a + im.signExtend 64).toNat
    (∀ n i, (n = 1 ∧ (i = Instr.ldB d a im ∨ i = .ldBn d a im)) ∨ (n = 2 ∧ (i = .ldH d a im ∨ i = .ldHn d a im))
        ∨ (n = 4 ∧ (i = .ldW d a im ∨ i = .ldWn d a im)) ∨ (n = 8 ∧ i = .ldD d a im) →
      s.locate s.view at_ n 1 false = .error f →
      ∃ t, exec i s = .next t ∧ TrapTaken s t f.cause f.val f.val2 s.hart.ctx.pc 0 ∧ SameBytes s t ∧
        t.hart.ctx.sCount = s.hart.ctx.sCount) ∧
    (∀ n i, (n = 1 ∧ i = Instr.stB d a im) ∨ (n = 2 ∧ i = .stH d a im) ∨ (n = 4 ∧ i = .stW d a im) ∨ (n = 8 ∧ i = .stD d a im) →
      s.locate s.view at_ n 1 true = .error f →
      ∃ t, exec i s = .next t ∧ TrapTaken s t f.cause f.val f.val2 s.hart.ctx.pc 0 ∧ SameBytes s t ∧
        t.hart.ctx.sCount = s.hart.ctx.sCount)

/-- CSRR reads a CSR, each register with its own value; CSRW, CSRS and CSRC write xa, CSR or xa, CSR and not xa (R174,
R4, R326, R51, R52, R53, R54, R55, R56, R57, R293, R294). That a poisoned xa raises POISON and marks VL and TL is the
model's choice (log entry 68), and so is the EID of a device without one (log entry 67). -/
def Obligations.CsrInstructions : Prop :=
  (∀ (s : State) (d a : Reg) (c : BitVec 12), csrCheck s.hart.level c.toNat = none →
    let marked := (c = 0x10 ∧ vlMark ∈ s.hart.ctx.poison) ∨ (c = 0x11 ∧ tlMark ∈ s.hart.ctx.poison)
    (s.csrWaits c.toNat = false → (s.isFw = false ∨ c ≠ 0x200) → ¬ marked →
      exec (.csrr d c) s = .next (wroteX s d (s.csrValue c.toNat))) ∧
    (s.csrWaits c.toNat = false → marked → d ≠ 0 → ∃ t, exec (.csrr d c) s = .next t ∧ OnlyHart s t ∧ XPoisoned t d ∧
      t.hart.ctx.x = s.hart.ctx.x.set d (s.csrValue c.toNat) ∧ t.hart.ctx.pc = s.hart.ctx.pc + 4) ∧
    (∀ q, s.focus = .fw q → c = 0x200 → s.csrWaits c.toNat = false →
      exec (.csrr d c) s = .next (wroteX (s.popEvent q) d (s.csrValue c.toNat))) ∧
    (Calm s → XPoisoned s a → ∀ i ∈ [Instr.csrw a c, .csrs a c, .csrc a c], exec i s = .next (s.swordTrap (poisoned a))) ∧
    (Calm s → ¬ XPoisoned s a →
      (∀ u, s.csrWrite c.toNat (readX s a) = .ok u → exec (.csrw a c) s = .next (wentTo u (u.hart.ctx.pc + 4))) ∧
      (∀ u, s.csrWrite c.toNat (s.csrValue c.toNat ||| readX s a) = .ok u → exec (.csrs a c) s = .next (wentTo u (u.hart.ctx.pc + 4))) ∧
      (∀ u, s.csrWrite c.toNat (s.csrValue c.toNat &&& ~~~(readX s a)) = .ok u →
        exec (.csrc a c) s = .next (wentTo u (u.hart.ctx.pc + 4))))) ∧
  (∀ s : State,
    let c := s.hart.ctx
    let v := s.csrValue
    v 0x10 = word c.vl ∧ v 0x11 = word c.tl ∧ v 0x12 = word (flag c.m * 256 + c.vn) ∧ v 0x13 = word s.kc ∧ v 0x14 = word s.rows ∧
    v 0x15 = word c.cbyp ∧ v 0x16 = c.fcsr ∧ v 0x18 = word c.vstart ∧ v 0x19 = c.lps ∧ v 0x1A = c.srseed ∧
    v 0x31 = word (flag c.tiernote) ∧ v 0x44 = word (s.fabric.eid % 8192) ∧
    (∀ g < 16, v (0x20 + g) = word (min 65535 ((s.fabric.units.filter fun p => s.groupOf p.1 == g).map (·.2)).sum)) ∧
    (c.fmask = 0 → v 0x17 = 0) ∧
    (∀ k, c.fmask < 2 ^ 65536 → bit c.fmask k = true → (∀ j < k, bit c.fmask j = false) → v 0x17 = word (2 ^ 63 + k)) ∧
    (∀ g n, s.hart.occ = some (g, n) → v 0x41 = word n ∧ v 0x42 = word g)) ∧
  (∀ (s : State) (cid h : Nat), s.focus = .hart cid h →
    let c := s.core cid
    let v := s.csrValue
    let g := s.hart
    v 0x40 = word c.cycle ∧ v 0x43 = word cid ∧
    v 0x30 = word (flag (!c.ovf.isEmpty) * 2 ^ 63 + flag (!c.holds.isEmpty) * 2 ^ 62
      + (c.inbox.filter fun r => !r.pad).length % 65536 * 2 ^ 16 + c.free % 65536) ∧
    v 0x100 = g.sstatus ||| word (min 4 g.suspended.length * 2 ^ 55 + c.evhart) ∧
    v 0x101 = g.stvec ∧ v 0x102 = g.sepc ∧ v 0x103 = g.scause ∧ v 0x104 = g.stval ∧ v 0x105 = g.stval2 ∧ v 0x106 = g.sblka ∧
    v 0x107 = g.sword ∧ v 0x108 = g.sscratch[0] ∧ v 0x109 = g.sscratch[1] ∧ v 0x10A = g.sscratch[2] ∧ v 0x10B = g.sscratch[3] ∧
    v 0x110 = word c.kc ∧ v 0x111 = word c.quantum ∧ v 0x120 = c.mvtbase ∧ v 0x121 = word (c.inboxUnits * 2 ^ 32 + c.inboxOff * 64) ∧
    v 0x122 = c.ovfbase ∧ v 0x123 = word (c.ovfSize * 2 ^ 32 + c.ovfQuota) ∧ v 0x124 = c.ctxbase ∧ v 0x125 = c.ctxsize ∧ v 0x126 = 0 ∧
    v 0x130 = word (flag c.ctxBusy * 2 ^ 60 + flag c.ctxErr * 2 ^ 59 + c.ctxGid * 2 ^ 32 + c.ctxCoid) ∧ v 0x131 = word c.ctxarg) ∧
  (∀ (s : State) (q : Nat), s.focus = .fw q →
    let k := s.quad q
    let v := s.csrValue
    v 0x40 = word k.ftimer ∧ (k.events = [] → v 0x200 = 0) ∧
    (∀ e r, k.events = e :: r → v 0x200 = word (2 ^ 63 + e.code % 256 * 2 ^ 48 + e.arg % 2 ^ 48)) ∧
    v 0x201 = k.fevarg ∧ (∀ p : Fin 8, v (0x208 + p.val) = k.rlhead[p]) ∧ v 0x210 = word k.epoch ∧ v 0x211 = k.qbmbase ∧
    v 0x212 = word (flag k.run + 2 * flag k.idle) ∧ v 0x213 = word k.parthalt ∧ v 0x220 = word k.ftimer ∧ v 0x221 = k.ftcmp)

/-- A CSR write stores the writable fields and nothing of the reserved or read-only ones (R4, R5, R47, R53, R54, R55,
R56, R293, R294, R295, R304). -/
def Obligations.CsrWritesKeepReservedBits : Prop :=
  ∀ (s : State) (a : Reg), Calm s → ¬ XPoisoned s a →
    let v := readX s a
    let c := s.hart.ctx
    let h := s.hart
    let done := fun (n : BitVec 12) (g : Hart) =>
      let u := wentTo { s with hart := g } (c.pc + 4)
      exec (.csrw a n) s = Host.Outcome.next (φ := Fault) (ρ := Refusal) u
    let user := fun n (k : Ctx) => done n { h with ctx := k }
    user 0x10 c ∧ user 0x11 c ∧
    (s.regCopies = [] → s.isFw = false → v.toNat % 4 ≠ c.vn → user 0x12 { c with
      vn := v.toNat % 4, v := Vector.replicate 64 0, k := Vector.replicate 8 0, fmask := 0, vl := 0, vstart := 0,
      poison := c.poison.filter fun r => r.kind != 0 && r.kind != 1 }) ∧
    (s.regCopies = [] → s.isFw = true ∨ v.toNat % 4 = c.vn → user 0x12 c) ∧
    user 0x15 { c with cbyp := v.toNat % 2 ^ 40 } ∧
    (bits v.toNat 14 12 ≤ 5 → user 0x16 { c with fcsr := word (bits v.toNat 14 12 * 4096 + bits v.toNat 9 8 * 256 + bits v.toNat 5 0) }) ∧
    (bits v.toNat 14 12 > 5 → user 0x16 { c with
      fcsr := word (bits c.fcsr.toNat 14 12 * 4096 + bits v.toNat 9 8 * 256 + bits v.toNat 5 0) }) ∧
    user 0x17 { c with fmask := 0 } ∧
    user 0x18 { c with vstart := v.toNat % 2 ^ 16 } ∧
    user 0x19 { c with lps := word (bits v.toNat 63 32 * 2 ^ 32 + bits v.toNat 5 0) } ∧
    user 0x1A { c with srseed := v } ∧
    user 0x31 { c with tiernote := v.getLsbD 0 } ∧
    (h.level ≠ .user →
      done 0x101 { h with stvec := word (bits v.toNat 56 2 * 4) } ∧
      done 0x102 { h with sepc := v } ∧
      done 0x103 { h with scause := v &&& 0xEFC00000FFFFFFFF } ∧
      done 0x104 { h with stval := v } ∧
      done 0x105 { h with stval2 := v } ∧
      done 0x106 { h with sblka := v } ∧
      done 0x107 { h with sword := v } ∧
      done 0x108 { h with sscratch := h.sscratch.set 0 v } ∧
      done 0x109 { h with sscratch := h.sscratch.set 1 v } ∧
      done 0x10A { h with sscratch := h.sscratch.set 2 v } ∧
      done 0x10B { h with sscratch := h.sscratch.set 3 v } ∧
      (∃ t, exec (.csrw a 0x100) s = .next t ∧ ∀ k < 64, statusBit t.hart.sstatus k =
        if k = 63 ∨ k = 62 ∨ k = 59 ∨ k = 58 ∨ k = 53 ∨ k = 52 then statusBit v k else statusBit h.sstatus k)) ∧
    (∀ cid n, s.focus = .hart cid n → h.level = .supervisor →
      let k := s.core cid
      let sets := fun (r : BitVec 12) (P : Core → Prop) =>
        ∃ t, exec (.csrw a r) s = Host.Outcome.next (φ := Fault) (ρ := Refusal) t ∧ t.hart.ctx.pc = c.pc + 4 ∧ P (t.core cid)
      sets 0x100 (fun m => m.evhart = if v.toNat % 8 < k.harts then v.toNat % 8 else k.evhart) ∧
      sets 0x111 (fun m => m = { k with quantum := v.toNat % 2 ^ 32 }) ∧
      sets 0x120 (fun m => m = { k with mvtbase := v &&& 0x01FFFFFFFFFFF000 }) ∧
      sets 0x124 (fun m => m.ctxbase = v &&& 0x01FFFFFFFFFF0000 ∧ m.ctxsize = k.ctxsize) ∧
      sets 0x125 (fun m => m.ctxsize = v &&& 0x000000FFFFFF0000 ∧ m.ctxbase = k.ctxbase) ∧
      sets 0x131 (fun m => m = { k with ctxarg := v.toNat % 2048 }) ∧
      (k.ctxBusy = true → exec (.csrw a 0x130) s = Host.Outcome.next (φ := Fault) (ρ := Refusal) s) ∧
      (k.ctxBusy = false → 1 ≤ bits v.toNat 63 61 → bits v.toNat 63 61 ≤ 4 → sets 0x130 (fun m =>
        m = { k with ctxGid := bits v.toNat 47 32, ctxCoid := bits v.toNat 31 0, ctxBusy := true, ctxErr := false })) ∧
      (k.ctxBusy = false → bits v.toNat 63 61 = 0 ∨ 4 < bits v.toNat 63 61 → sets 0x130 (fun m => m = k)))

/-- The register-write steps: each changes its register as its rule says (R47, R53, R55, R293, R296, R309, R326, R96,
R4). -/
def Obligations.RegisterWriteSteps : Prop :=
  ∀ (s : State) (v : Word) (cid k q : Nat),
    (s.hart.blocks = [] → s.regCopies = [] → s.isFw = false → v.toNat % 4 ≠ s.hart.ctx.vn →
      exec (.vcfgWrite v) s = .next { s with hart := { s.hart with ctx := { s.hart.ctx with
        vn := v.toNat % 4, v := Vector.replicate 64 0, k := Vector.replicate 8 0, fmask := 0, vl := 0, vstart := 0,
        poison := s.hart.ctx.poison.filter fun r => r.kind != 0 && r.kind != 1 } } }) ∧
    (s.hart.blocks = [] → s.regCopies = [] → s.isFw = true ∨ v.toNat % 4 = s.hart.ctx.vn → exec (.vcfgWrite v) s = .next s) ∧
    exec .fmaskWrite s = .next { s with hart := { s.hart with ctx := { s.hart.ctx with fmask := 0 } } } ∧
    (s.focus = .hart cid k →
      ((s.core cid).coros = [] → ∃ t, exec (.slpartWrite v) s = .next t ∧ (t.core cid).kc = v.toNat % 4 ∧ t.hart = s.hart) ∧
      ((s.core cid).coros ≠ [] → ∃ t, exec (.slpartWrite v) s = .next t ∧ t.core cid = s.core cid) ∧
      (∃ t, exec (.ovfbaseWrite v) s = .next t ∧ (t.core cid).ovfbase = word (bits v.toNat 56 6 * 64) ∧ (t.core cid).holds = []) ∧
      ((s.core cid).holdsMessages = false → bits v.toNat 23 0 ≤ bits v.toNat 55 32 →
        ∃ t, exec (.ovfcfgWrite v) s = .next t ∧ (t.core cid).ovfSize = bits v.toNat 55 32 ∧
          (t.core cid).ovfQuota = bits v.toNat 23 0 ∧ (t.core cid).holds = []) ∧
      (∀ u, u = bits v.toNat 46 32 → (s.core cid).holdsMessages = false → 8 ≤ u → u ≤ 16384 →
        (bits v.toNat 19 6 + u) * 64 ≤ Config.spadBytes → s.ringInGang cid (bits v.toNat 19 6) = false →
        ∃ t, exec (.inboxcfgWrite v) s = .next t ∧ (t.core cid).inboxUnits = u ∧ (t.core cid).inboxOff = bits v.toNat 19 6 ∧
          (t.core cid).inbox = [] ∧ (t.core cid).inboxW = 0 ∧ (t.core cid).holds = []) ∧
      ((s.core cid).holdsMessages = true ∨ (8 ≤ bits v.toNat 46 32 ∧ bits v.toNat 46 32 ≤ 16384 ∧
          (Config.spadBytes < (bits v.toNat 19 6 + bits v.toNat 46 32) * 64 ∨ s.ringInGang cid (bits v.toNat 19 6) = true)) →
        exec (.inboxcfgWrite v) s = .next s) ∧
      ((s.core cid).holdsMessages = false → bits v.toNat 46 32 = 0 →
        ∃ t, exec (.inboxcfgWrite v) s = .next t ∧ (t.core cid).inboxUnits = 0 ∧ (t.core cid).inbox = [] ∧
          (t.core cid).holds = []) ∧
      (∀ r rest, (s.core cid).inbox = r :: rest → r.pad = false → r.made = false → v.getLsbD 0 = true →
        ∃ t, exec (.inboxdropHead v) s = .next t ∧ (t.core cid).inbox = advanceInbox
          (((s.core cid).inbox.map fun e => if e.unit = r.unit ∧ e.pad = false then { e with made := true } else e).map
            fun e => if e.unit = r.unit ∧ e.pad = false then { e with released := true } else e))) ∧
    (∀ h : q < 4,
      (∃ t, exec (.wctlWrite q v) s = .next t ∧ t.quads[q] = { s.quads[q] with
        run := v.getLsbD 0, idle := if v.getLsbD 0 then false else s.quads[q].idle } ∧ t.hart = s.hart) ∧
      (∃ t, exec (.ftcmpWrite q v) s = .next t ∧ t.quads[q] = { s.quads[q] with ftcmp := v, armed := true } ∧ t.hart = s.hart) ∧
      (∃ t, exec (.qbmbaseWrite q v) s = .next t ∧ t.quads[q].qbmbase = word (bits v.toNat 56 10 * 1024) ∧ t.quads[q].qbmSet = true) ∧
      (∀ (d : Reg) e r, s.quads[q].events = e :: r → ∃ t, exec (.fevqRead q d) s = .next t ∧
        t.quads[q].events = r ++ s.quads[q].waiting.take 1 ∧ t.quads[q].fevarg = word e.arg2 ∧
        (t.hartOf (.fw q)).ctx =
          ((s.hartOf (.fw q)).ctx.put d (word (2 ^ 63 + e.code % 256 * 2 ^ 48 + e.arg % 2 ^ 48))).mark d false)) ∧
    (∀ (c : BitVec 12) u, s.csrWrite c.toNat v = .ok u → exec (.registerWrite c v) s = .next u)

/-- The shared arithmetic rounds the exact value once; minimum, maximum, sign and comparison follow the values (R65,
R67, R69, R70, R71, R72, R74, R75, R76, R77, R78, R190). Of the exponential and the logarithm it states the exact and
the special results only: the last place of the others is the model's own series (log entry 11). -/
def Obligations.ExactRounding : Prop :=
  ((∀ (t : EType) (n p bias top : Nat), (t, n, p, bias, top) ∈
      [(EType.f64, 64, 52, 1023, 0x7FEFFFFFFFFFFFFF), (.f32, 32, 23, 127, 0x7F7FFFFF), (.f16, 16, 10, 15, 0x7BFF),
       (.bf16, 16, 7, 127, 0x7F7F), (.e5m2, 8, 2, 15, 0x7B), (.e4m3, 8, 3, 7, 0x7E), (.e2m1, 4, 1, 1, 0x7)] →
    let wide : Prop := t ∈ [EType.f64, .f32, .f16, .bf16]
    let val := fun M : Nat => if M < 2 ^ p then (M : ℝ) * 2 ^ ((1 : ℤ) - bias - p)
      else ((2 ^ p + M % 2 ^ p : ℕ) : ℝ) * 2 ^ (((M / 2 ^ p : ℕ) : ℤ) - bias - p)
    let sign := fun (neg : Bool) (M : Nat) => (if neg then 2 ^ (n - 1) else 0) + M
    let value := fun (neg : Bool) (m : Nat) (e : ℤ) => (if neg then -1 else 1) * ((m : ℝ) * 2 ^ e)
    let rounded := fun (v : FpEnv) (satur keep neg : Bool) (x : ℝ) (r : Flagged) => ∃ k lo c : ℤ, (2 : ℝ) ^ k ≤ x ∧ x < 2 ^ (k + 1) ∧
      let ulp : ℝ := 2 ^ max ((1 : ℤ) - bias - p) (k - p)
      let frac : ℝ := x / ulp - lo
      let mode := if v.rm = 5 ∧ val top < x then 0 else v.rm
      let up : Prop := frac ≠ 0 ∧ match mode with
        | 1 => False
        | 2 => neg = true
        | 3 => neg = false
        | 4 => 1 / 2 ≤ frac
        | 5 => (v.rnd : ℤ) < ⌊frac * 2 ^ 32⌋
        | _ => 1 / 2 < frac ∨ (frac = 1 / 2 ∧ lo % 2 = 1)
      let mag : ℝ := c * ulp
      let tiny : Prop := 0 < mag ∧ mag < 2 ^ ((1 : ℤ) - bias)
      let flushed : Prop := tiny ∧ wide ∧ v.ftz = true ∧ keep = false
      0 ≤ frac ∧ frac < 1 ∧ (up → c = lo + 1) ∧ (¬ up → c = lo) ∧
      (val top < mag →
        (t = .e2m1 ∨ (satur = true ∧ (t = .e5m2 ∨ t = .e4m3)) → r = (sign neg top, 33)) ∧
        (t = .e4m3 → satur = false → r = (0x7F, 5)) ∧
        (wide ∨ (t = .e5m2 ∧ satur = false) → r =
          (sign neg (if mode = 1 ∨ (mode = 2 ∧ neg = false) ∨ (mode = 3 ∧ neg = true) then top else 2 ^ (n - 1) - 2 ^ p), 5))) ∧
      (mag ≤ val top → flushed → r = (sign neg 0, 3)) ∧
      (mag ≤ val top → ¬ flushed → (∃ M ≤ top, r.1 = sign neg M ∧ val M = mag) ∧
        (frac = 0 → r.2 = 0) ∧ (frac ≠ 0 → tiny → r.2 = 3) ∧ (frac ≠ 0 → ¬ tiny → r.2 = 1))
    (∀ neg (M : Nat) daz, M ≤ top → ∃ m e, fread t daz (sign neg M) = .fin neg m e ∧
      (daz = true ∧ wide ∧ M < 2 ^ p → m = 0) ∧ (¬ (daz = true ∧ wide ∧ M < 2 ^ p) → (m : ℝ) * 2 ^ e = val M)) ∧
    ∀ v : FpEnv, v.rm ≤ 5 →
      (∀ satur keep neg m e, (m = 0 → roundFin t v satur keep neg m e = (sign neg 0, 0)) ∧
        (0 < m → rounded v satur keep neg (m * 2 ^ e) (roundFin t v satur keep neg m e))) ∧
      (v.rm ≤ 4 → wide → ∀ a m e b m2 e2,
        let x := FVal.fin a m e
        let y := FVal.fin b m2 e2
        (∀ neg z, 0 < z → value a m e + value b m2 e2 = (if neg then -z else z) → rounded v false false neg z (fadd t v x y)) ∧
        (value a m e + value b m2 e2 = 0 → fadd t v x y = (sign (if a = b then a else v.rm == 2) 0, 0)) ∧
        (0 < m → 0 < m2 → rounded v false false (a != b) (m * 2 ^ e * (m2 * 2 ^ e2)) (fmul t v x y)) ∧
        (∀ c m3 e3 neg z, 0 < z → value a m e * value b m2 e2 + value c m3 e3 = (if neg then -z else z) →
          rounded v false false neg z (ffma t v x y (.fin c m3 e3))) ∧
        (0 < m → 0 < m2 → rounded v false false (a != b) (m * 2 ^ e / (m2 * 2 ^ e2)) (fdiv t v x y)) ∧
        (0 < m → a = false → rounded v false false false √(m * 2 ^ e) (fsqrt t v x)) ∧
        (0 < m → rounded v false false a (1 / (m * 2 ^ e)) (frcp t v x)) ∧
        (0 < m → a = false → rounded v false false false (1 / √(m * 2 ^ e)) (frsqrt t v x))) ∧
      (∀ src satur x neg m e, isFloat src = true → fread src v.daz x = .fin neg m e →
        (m = 0 → convert src t v satur x = (sign neg 0, 0)) ∧
        (0 < m → rounded v satur (widens src t) neg (m * 2 ^ e) (convert src t v satur x))) ∧
      (∀ src satur (x : Nat) neg (z : ℝ), isFloat src = false → 0 < z →
        (intOf src (x % 2 ^ etypeBits src) : ℝ) = (if neg then -z else z) → rounded v satur false neg z (convert src t v satur x)) ∧
      (∀ dst satur x neg m e (q : ℤ), v.rm ≤ 4 → isFloat dst = false → fread t v.daz x = .fin neg m e →
        let y := value neg m e
        let w := etypeBits dst
        let low : ℤ := if isSigned dst then -(2 ^ (w - 1)) else 0
        let high : ℤ := if isSigned dst then 2 ^ (w - 1) - 1 else 2 ^ w - 1
        (v.rm = 0 → |y - q| ≤ 1 / 2 ∧ (|y - q| = 1 / 2 → q % 2 = 0)) → (v.rm = 1 → q = if neg then ⌈y⌉ else ⌊y⌋) →
        (v.rm = 2 → q = ⌊y⌋) → (v.rm = 3 → q = ⌈y⌉) → (v.rm = 4 → q = if neg then ⌈y - 1 / 2⌉ else ⌊y + 1 / 2⌋) →
        (low ≤ q → q ≤ high → (q : ℝ) = y → convert t dst v satur x = ((q % 2 ^ w).toNat, 0)) ∧
        (low ≤ q → q ≤ high → (q : ℝ) ≠ y → convert t dst v satur x = ((q % 2 ^ w).toNat, 1)) ∧
        (q < low ∨ high < q → convert t dst v satur x = (((if neg then low else high) % 2 ^ w).toNat, 16))) ∧
      (v.rm ≤ 4 → t = .f64 ∨ t = .f32 → ∀ (a : Bool × Nat × ℤ) (ps : List ((Bool × Nat × ℤ) × (Bool × Nat × ℤ))) sub neg z, 0 < z →
        let real := fun u : Bool × Nat × ℤ => value u.1 u.2.1 u.2.2
        let fin := fun u : Bool × Nat × ℤ => FVal.fin u.1 u.2.1 u.2.2
        real a + (if sub then -1 else 1) * (ps.map fun q => real q.1 * real q.2).sum = (if neg then -z else z) →
        rounded v false false neg z (opaFloat t v (fin a) (ps.map fun q => (fin q.1, fin q.2)) sub))) ∧
  (∀ seed n i : Word,
    let z0 := seed ^^^ n * 0x9E3779B97F4A7C15 ^^^ i * 0xBF58476D1CE4E5B9
    let z1 := (z0 ^^^ z0 >>> 30) * 0xBF58476D1CE4E5B9
    let z2 := (z1 ^^^ z1 >>> 27) * 0x94D049BB133111EB
    srRandom seed.toNat n.toNat i.toNat = (z2 ^^^ z2 >>> 31).toNat % 2 ^ 32)) ∧
  ((∀ (t : EType) (n q : Nat), (t, n, q) ∈ [(EType.f64, 64, 0x7FF8000000000000), (.f32, 32, 0x7FC00000), (.f16, 16, 0x7E00), (.bf16, 16, 0x7FC0)] →
    ∀ (daz : Bool) (x y : Nat),
      let x1 := dazBits t daz x
      let y1 := dazBits t daz y
      let a := fread t daz x
      let b := fread t daz y
      let quiet := fun v : FVal => ∀ g, v ≠ .nan g
      (∀ g m e g2 m2 e2, a = .fin g m e → b = .fin g2 m2 e2 →
        let u : ℝ := (if g then -1 else 1) * ((m : ℝ) * 2 ^ e)
        let w : ℝ := (if g2 then -1 else 1) * ((m2 : ℝ) * 2 ^ e2)
        (u < w ∨ (u = w ∧ g = true ∧ g2 = false) → fselect t daz true x y = (y1, 0) ∧ fselect t daz true y x = (y1, 0) ∧
          fselect t daz false x y = (x1, 0) ∧ fselect t daz false y x = (x1, 0)) ∧
        (∀ c < 6, (fcompare c a b).2 = 0 ∧ ((fcompare c a b).1 = true ↔ match c with
          | 0 => u = w | 1 => u ≠ w | 2 => u < w | 3 => u ≤ w | 4 => w < u | _ => w ≤ u))) ∧
      (∀ g, a = .nan g → quiet b → ∀ l, fselect t daz l x y = (y1, if g then 16 else 0) ∧ fselect t daz l y x = (y1, if g then 16 else 0)) ∧
      (∀ g g2, a = .nan g → b = .nan g2 → ∀ l, fselect t daz l x y = (q, if g ∨ g2 then 16 else 0)) ∧
      (∀ g, a = .nan g → (∀ c < 6, (fcompare c a b).1 = (c == 1) ∧ (fcompare c b a).1 = (c == 1) ∧
        (fcompare c a b).2 = (if g = true ∨ b = .nan true ∨ 2 ≤ c then 16 else 0) ∧ (fcompare c b a).2 = (fcompare c a b).2) ∧
        ∀ l, fsign t daz l x = (q, if g then 16 else 0)) ∧
      (quiet a → fsign t daz false x = (x1 % 2 ^ (n - 1), 0) ∧
        fsign t daz true x = (if x1 < 2 ^ (n - 1) then x1 + 2 ^ (n - 1) else x1 - 2 ^ (n - 1), 0))) ∧
  (∀ v : FpEnv, v.rm ≤ 4 →
    fexp2 .f32 v (.inf true) = (0, 0) ∧ fexp2 .f32 v (.inf false) = (0x7F800000, 0) ∧
    flog2 .f32 v (.inf true) = (0x7FC00000, 16) ∧ flog2 .f32 v (.inf false) = (0x7F800000, 0) ∧
    (∀ g, fexp2 .f32 v (.nan g) = (0x7FC00000, if g then 16 else 0) ∧ flog2 .f32 v (.nan g) = (0x7FC00000, if g then 16 else 0)) ∧
    (∀ (x : Nat) g m e, fread .f32 v.daz x = .fin g m e →
      (m = 0 → fexp2 .f32 v (.fin g m e) = (0x3F800000, 0) ∧ flog2 .f32 v (.fin g m e) = (0xFF800000, 8)) ∧
      (0 < m → g = true → flog2 .f32 v (.fin g m e) = (0x7FC00000, 16)) ∧
      (∀ k : ℤ, (if g then -1 else 1) * ((m : ℝ) * 2 ^ e) = k → -126 ≤ k → k ≤ 127 →
        fexp2 .f32 v (.fin g m e) = (((k + 127) * 2 ^ 23).toNat, 0)) ∧
      (∀ k : ℤ, g = false → (m : ℝ) * 2 ^ e = 2 ^ k → ∃ r, flog2 .f32 v (.fin g m e) = (r, 0) ∧ (k = 0 → r = 0) ∧
        (k ≠ 0 → ∃ m2 e2, fread .f32 false r = .fin (decide (k < 0)) m2 e2 ∧ (m2 : ℝ) * 2 ^ e2 = |(k : ℝ)|)))))

/-- An S-word that closes a strip acts as it does in the state whose strip is closed, and waits while an earlier block
runs (R39, R177, R181). That these words wait for every block in flight, a strip open or not, is the model's choice (log
entry 38). -/
def Obligations.StripCloses : Prop :=
  ∀ (s u : State) (i : Instr), WellFormed i →
    (match i with
      | .stB .. | .stH .. | .stW .. | .stD .. | .setvl .. | .stripend | .scall .. | .trap .. | .cp .. | .rget .. | .rput ..
      | .ratom .. | .await .. | .awaitany .. | .sinit .. | .expect .. | .arrive .. | .sgen .. | .tkmake .. | .ldfe .. | .stfe ..
      | .feset .. | .feclr .. | .amo .. | .fenceRel .. | .fenceAcq .. | .fenceAr .. | .fenceSc .. | .lsync | .msend .. | .spawn ..
      | .yield | .cexit | .galloc .. | .gfree .. | .gdecl .. | .gstep .. | .gwait .. | .gdrop .. => True
      | .wfm => s.hart.level ≠ .user
      | .csrw _ c | .csrs _ c | .csrc _ c => csrCheck s.hart.level c.toNat = none
      | .cpG _ _ v .. | .cpS _ _ v .. => v.toNat < regCount s.hart.ctx.vn
      | _ => False) →
    (Closes s u → MayAct s true → exec i s = exec i u) ∧
    (s.hart.blocks ≠ [] → MayAct s true → exec i s = .next s)

/-- SCALL and TRAP trap to the handler with xa and return to the next S-word; WFM waits until a message, a trap or PP
ends the wait (R175, R298, R72, R300, R323). That SWORD and SBLKA are 0 for SYSCALL and USER_TRAP is the model's choice
(log entries 39, 65), and so is POISON at a poisoned xa (log entry 68). -/
def Obligations.CallsAndWaits : Prop :=
  ((∀ (s : State) (a : Reg), Calm s → MayTrap s → ¬ XPoisoned s a →
    ∀ e ∈ [(Instr.scall a, Cause.syscall), (.trap a, .userTrap)],
      ∃ t, exec e.1 s = .next t ∧ TrapTaken s t e.2 (readX s a) 0 (s.hart.ctx.pc + 4) 0 ∧ SameBytes s t ∧
        t.hart.ctx.sCount = s.hart.ctx.sCount + (if s.hart.level = .user then 1 else 0)) ∧
  (∀ (s : State) (a : Reg), Calm s → XPoisoned s a → ∀ i ∈ [Instr.scall a, .trap a],
    exec i s = .next (s.swordTrap (poisoned a)))) ∧
  ((∀ s : State, Calm s → s.hart.level ≠ .user → ∃ t, exec .eret s = .next t ∧ OnlyHart s t ∧
    (statusBit s.hart.sstatus 61 = false → t.hart.ctx.pc = s.hart.sepc) ∧ statusBit t.hart.sstatus 63 = false ∧ t.hart.ctx.x = s.hart.ctx.x ∧ SameBytes s t) ∧
  (∀ s : State, Calm s → s.hart.level ≠ .user → exec .wfm s = .next { s with hart := { s.hart with run := .wfm } }) ∧
  (∀ (s : State) (cid h : Nat), s.focus = .hart cid h → s.hart.run = .wfm →
    let c := s.core cid
    let ends := (∃ r ∈ c.inbox, r.pad = false) ∨ (c.asyncs ≠ [] ∧ c.evhart = h) ∨ statusBit s.hart.sstatus 54 = true
    (ends → exec (.wfmResume s.focus) s =
      .next (wentTo { s with hart := { s.hart with run := .running } } (s.hart.ctx.pc + 4))) ∧
    (¬ ends → exec (.wfmResume s.focus) s = .next s)) ∧
  (∀ (s : State) (q : Nat), s.focus = .fw q → s.hart.run = .wfm → (s.quad q).events ≠ [] ∨ (s.core (2048 + q)).asyncs ≠ [] →
    exec (.wfmResume s.focus) s = .next (wentTo { s with hart := { s.hart with run := .running } } (s.hart.ctx.pc + 4))))

/-- ERET returns to SEPC: INTRAP and SBD end, and a trap from user level gives back the level, the blocks and the lazy
record (R300, R299, R302). -/
def Obligations.TrapReturn : Prop :=
  ∀ s : State, Calm s → s.hart.level ≠ .user →
    let st := statusBit s.hart.sstatus
    ∃ t, exec .eret s = .next t ∧ OnlyHart s t ∧ (st 61 = false → t.hart.ctx.pc = s.hart.sepc) ∧ t.hart.ctx.x = s.hart.ctx.x ∧
      (∀ k < 64, k ≠ 60 → k ≠ 54 → statusBit t.hart.sstatus k = if k = 63 ∨ k = 58 then false else st k) ∧
      (st 62 = false ∧ s.hart.level = .supervisor →
        t.hart.level = .user ∧ statusBit t.hart.sstatus 54 = false ∧ t.hart.run = (if st 61 then .idle else .running) ∧ t.hart.suspended = [] ∧
        statusBit t.hart.sstatus 60 = false ∧
        (st 58 = true → t.hart.blocks = []) ∧
        (st 58 = false → ∃ r, OnlyHart s r ∧ r.hart.level = .user ∧ r.hart.ahead = [] ∧
          t.hart.blocks = s.hart.suspended.map fun b => r.refetch { b with raise := none }) ∧
        (st 58 = true → s.hart.suspended ≠ [] → t.hart.ctx.vstart = 0) ∧
        (∀ b r, st 58 = false → s.hart.suspended = b :: r → t.hart.ctx.vstart = b.vstart) ∧
        (∀ c, st 60 = true → s.hart.lazy = some c → t.hart.ctx.v = c.v ∧ t.hart.ctx.k = c.k ∧ t.hart.ctx.vn = c.vn ∧ t.hart.lazy = none) ∧
        (st 60 = false → t.hart.ctx.v = s.hart.ctx.v ∧ t.hart.ctx.k = s.hart.ctx.k ∧ t.hart.ctx.vl = s.hart.ctx.vl)) ∧
      ((st 62 = true ∧ st 61 = false) ∨ s.hart.level = .firmware →
        t.hart.level = s.hart.level ∧ t.hart.run = .running ∧ t.hart.suspended = s.hart.suspended ∧ t.hart.blocks = [] ∧
        statusBit t.hart.sstatus 60 = st 60 ∧ statusBit t.hart.sstatus 54 = st 54 ∧ t.hart.ctx.v = s.hart.ctx.v ∧
        t.hart.ctx.k = s.hart.ctx.k)

/-- STRIPEND closes an open strip; with none open it waits for the earlier blocks and has no other effect (R181). -/
def Obligations.StripEnd : Prop :=
  (∀ s u : State, Closes s u → exec .stripend s = .next (wentTo u (u.hart.ctx.pc + 4)) ∧ u.hart.ctx.strip = none ∧ u.hart.pend = []) ∧
  (∀ s : State, s.hart.blocks ≠ [] → exec .stripend s = .next s) ∧
  (∀ s : State, Calm s → exec .stripend s = .next (wentTo s (s.hart.ctx.pc + 4)))

/-- VFETCH hands a block to the lanes with the snapshot of x16 to x31 and the values of VL, TL, LPS.P and FCSR.RM of
that moment (R183, R141, R45, R302). Model choices: SWORD = 0 and SBLKA = 0 of MISALIGNED (log entries 39, 65), the wait
while the context cache has no room for the lazy record (log entry 60), the stages that P counts (log entry 96), and the
poison marks of the snapshot and of the lengths (log entry 68). -/
def Obligations.VectorFetch : Prop :=
  ∀ (s : State) (o : BitVec 20) (r : Reg) (im : BitVec 15),
    let saves := s.hart.level = .supervisor ∧ statusBit s.hart.sstatus 62 = false ∧ statusBit s.hart.sstatus 61 = false ∧
      statusBit s.hart.sstatus 60 = false
    let kept := s.lazySave.respill s.cid
    (XPoisoned s r → s.hart.blocks = [] → exec (.vfetchReg r im) s = .next (s.swordTrap (poisoned r))) ∧
    (∀ i ∈ [Instr.vfetch o, .vfetchReg r im], (i = .vfetchReg r im → ¬ XPoisoned s r) → ¬ saves → s.hart.blocks = [] →
      (vlMark ∈ s.hart.ctx.poison →
        exec i s = .next (s.swordTrap { cause := .poison, val := word (0xFF * 2 ^ 56 + 7 * 2 ^ 48) })) ∧
      (vlMark ∉ s.hart.ctx.poison → tlMark ∈ s.hart.ctx.poison →
        exec i s = .next (s.swordTrap { cause := .poison, val := word (0xFF * 2 ^ 56 + 7 * 2 ^ 48 + 1) }))) ∧
    ∀ e ∈ [(Instr.vfetch o, BitVec.ofInt 64 (s.hart.ctx.pc.toNat + o.toInt * 4)),
           (.vfetchReg r im, readX s r + im.signExtend 64)],
      (e.1 = .vfetchReg r im → ¬ XPoisoned s r) → saves ∨ (vlMark ∉ s.hart.ctx.poison ∧ tlMark ∉ s.hart.ctx.poison) →
      (e.2.toNat % 8 = 0 → s.hart.blocks.length < 4 → ¬ saves →
        ∃ b : Block,
          exec e.1 s = .next (wentTo { s with hart := { s.hart with blocks := s.hart.blocks ++ [b] } } (s.hart.ctx.pc + 4)) ∧
          b.addr = e.2 ∧ b.idx = 0 ∧ b.snap = s.hart.ctx.x.toList.drop 16 ∧ b.vl = s.hart.ctx.vl ∧ b.tl = s.hart.ctx.tl ∧
          b.bad = ((List.range 16).filter fun k => s.hart.ctx.poison.contains (xWord (Fin.ofNat 32 (16 + k)))) ∧
          b.p = bits s.hart.ctx.lps.toNat 3 0 % 2 ^ (bits s.hart.ctx.lps.toNat 5 4 + 1) ∧ b.rm = bits s.hart.ctx.fcsr.toNat 14 12 ∧
          (b.words, b.fault) = s.blockWords s.view 64 e.2.toNat) ∧
      (e.2.toNat % 8 = 0 → s.hart.blocks.length < 4 → saves → kept.overFull s.cid = false →
        ∃ t, exec e.1 s = .next t ∧ t.hart.lazy = some s.hart.ctx ∧ statusBit t.hart.sstatus 60 = true ∧
          t.hart.ctx.v = Vector.replicate 64 0 ∧ t.hart.ctx.vl = 0 ∧ t.hart.blocks.length = s.hart.blocks.length + 1 ∧
          t.hart.ctx.pc = s.hart.ctx.pc + 4 ∧ t.hart.ctx.x = s.hart.ctx.x) ∧
      (e.2.toNat % 8 = 0 → s.hart.blocks.length < 4 → saves → kept.overFull s.cid = true →
        exec e.1 s = .next { kept with hart := s.hart }) ∧
      (s.hart.blocks.length ≥ 4 → e.2.toNat % 8 = 0 → exec e.1 s = .next s) ∧
      (e.2.toNat % 8 ≠ 0 → s.hart.blocks = [] → NoStrip s → MayTrap s →
        ∃ t, exec e.1 s = .next t ∧ TrapTaken s t .misaligned e.2 0 s.hart.ctx.pc 0 ∧ SameBytes s t)

/-- SINIT writes both words, EXPECT adds to TARGET, TKMAKE makes a token, SGEN reads GEN, ARRIVE contributes (R255, R87,
R89, R90, R117). Model choices: the order of the checks of ARRIVE (log entry 18), and the poison marks of scalar
registers (log entry 68). -/
def Obligations.SyncWords : Prop :=
  (∀ (s : State) (d a b : Reg) (l : Loc) (g : Nat), Calm s → CleanX s [a, b] → s.syncSpot (readX s a).toNat true true = .ok (some l, g) →
    let xb := (readX s b).toNat
    let w1 := s.num (l.plus 8) 8
    let sum := bits w1 39 0 + xb
    (Storable s (l.run 16) → ∃ t, exec (.sinit d a b) s = .next t ∧
      t.hart = (wroteX s d (tokenOf s.fabric.eid g (bits xb 55 40))).hart ∧ SameFull s t ∧
      Stored s t (l.run 16) (bytesOf 8 (2 ^ 63 + bits xb 55 40 * 2 ^ 40) ++ bytesOf 8 (bits xb 39 0))) ∧
    (Storable s ((l.plus 8).run 8) → s.syncClean l 2 (readX s a) = .ok () → s.syncV l = true → sum < 2 ^ 40 →
      ∃ t, exec (.expect a b) s = .next t ∧ t.hart = (wentTo s (s.hart.ctx.pc + 4)).hart ∧ SameFull s t ∧
        Stored s t ((l.plus 8).run 8) (bytesOf 8 (bits w1 63 40 * 2 ^ 40 + sum))) ∧
    (s.syncClean l 2 (readX s a) = .ok () → s.syncV l = false →
      exec (.expect a b) s = .next (s.swordTrap { cause := .syncUninit, val := readX s a })) ∧
    (s.syncClean l 2 (readX s a) = .ok () → s.syncV l = true → 2 ^ 40 ≤ sum →
      exec (.expect a b) s = .next (s.swordTrap { cause := .syncOverflow, val := readX s a, val2 := readX s b }))) ∧
  (∀ (s : State) (d a b : Reg) (o : Option Loc) (g : Nat), Calm s → s.syncSpot (readX s a).toNat false false = .ok (o, g) →
    exec (.tkmake d a b) s = .next (wroteX s d (tokenOf s.fabric.eid g (bits (readX s b).toNat 15 0)) [a, b])) ∧
  (∀ (s : State) (d k b : Reg) (l : Loc), Calm s → CleanX s [k, b] →
    let tok := readX s k
    let n := (readX s b).toNat
    (tokenEp tok = s.fabric.eid → granNames (tokenGran tok) = true → s.tokenWord tok false = .ok l →
      exec (.sgen d k) s = .next (wroteX s d (tokenOf (tokenEp tok) (tokenGran tok) (s.syncGen l)))) ∧
    (tokenEp tok = s.fabric.eid → granNames (tokenGran tok) = true → n < 2 ^ 40 → Released s → s.tokenWord tok true = .ok l →
      s.syncClean l 2 (granAddr (tokenGran tok)) = .ok () → Unheld s (l.run 16) →
      exec (.arrive k b) s = .next (wentTo (s.contributeAt l n) (s.hart.ctx.pc + 4))) ∧
    (2 ^ 40 ≤ n → exec (.arrive k b) s =
      .next (s.swordTrap { cause := .syncOverflow, val := granAddr (tokenGran tok), val2 := readX s b })) ∧
    (granNames (tokenGran tok) = false →
      exec (.sgen d k) s = .next (s.swordTrap { cause := .addrHole, val := granAddr (tokenGran tok) })))

/-- A token holds EP, GRAN and GEN, and is signalled when the word is 1 to 32,767 generations past it (R89). -/
def Obligations.Tokens : Prop :=
  (∀ ep gran gen : Nat, ep < 2 ^ 13 → gran < 2 ^ 35 → gen < 2 ^ 16 →
    let t := (tokenOf ep gran gen).toNat
    t / 2 ^ 51 = ep ∧ t / 2 ^ 16 % 2 ^ 35 = gran ∧ t % 2 ^ 16 = gen) ∧
  (∀ t : Word, tokenEp t = t.toNat / 2 ^ 51 ∧ tokenGran t = t.toNat / 2 ^ 16 % 2 ^ 35 ∧ tokenGen t = t.toNat % 2 ^ 16 ∧
    tokenOf (tokenEp t) (tokenGran t) (tokenGen t) = t) ∧
  (∀ (g : Nat) (t : Word), g < 2 ^ 16 →
    let d := ((g : Int) - (t.toNat % 2 ^ 16 : Nat)) % 2 ^ 16
    (signalledBy g t = true ↔ 1 ≤ d ∧ d ≤ 32767))

/-- A contribution adds to COUNT, clamps it at 2^40 - 1, and at TARGET advances GEN once and wakes the waiters (R87,
R88, R91). -/
def Obligations.Contributions : Prop :=
  ∀ (s : State) (l : Loc) (n : Nat), MemoriesWf s → (∀ x ∈ l.run 8, Plain s x) → ((l.run 8).map s.storage).Nodup → bit (s.num l 8) 63 = true →
    let w := s.num l 8
    let target := bits (s.num (l.plus 8) 8) 39 0
    let c := min (bits w 39 0 + n) (2 ^ 40 - 1)
    let t := s.contributeAt l n
    let w' := t.num l 8
    bit w' 63 = true ∧ bits w' 60 56 = bits w 60 56 ∧ bit w' 61 = (bit w 61 || decide (bits w 39 0 + n > 2 ^ 40 - 1)) ∧
    t.hart = s.hart ∧ t.harts = s.harts ∧ (∀ x, s.storage x ∉ (l.run 8).map s.storage → t.byteAt x = s.byteAt x) ∧
    (target ≤ c → bits w' 39 0 = c - target ∧ bits w' 55 40 = (bits w 55 40 + 1) % 2 ^ 16 ∧ bit w' 62 = false ∧
      t.waiters = s.waiters.filter (fun r => r.loc != l) ∧
      ∀ r ∈ s.waiters, r.loc = l → ∀ cid, r.who = .core cid → Turn.event (.wakeNotice cid r.gran) ∈ t.agenda) ∧
    (c < target → bits w' 39 0 = c ∧ bits w' 55 40 = bits w 55 40 ∧ bit w' 62 = true ∧ t.waiters = s.waiters ∧
      t.agenda = s.agenda)

/-- AWAIT and AWAITANY complete with the lowest signalled token, or set the coroutine aside with its live registers
(R253, R254, R89, R28). That a hart at another level waits in place is the model's choice (log entry 21). -/
def Obligations.Waits : Prop :=
  ∀ s : State, Calm s → MayAct s false → s.regCopies = [] →
    let done := fun (t : State) (d : Reg) (v : Word) =>
      t.hart = { (wroteX s d v).hart with issued := none, tokens := none } ∧ SameBytes s t
    (∀ (k m : Reg) (g : Bool) (l : Loc),
      let tok := readX s k
      CleanX s [k, m] → tokenEp tok = s.fabric.eid → granNames (tokenGran tok) = true → s.tokenWord tok false = .ok l →
      (signalledBy (s.syncGen l) tok = true → ∃ t, exec (.await k m g) s = .next t ∧ done t 0 0) ∧
      (signalledBy (s.syncGen l) tok = false → ∀ cid h gid n, Runner s cid h gid n → ((s.core cid).coro gid n).isSome = true →
        CacheRoom s cid gid n (readX s m).toNat g →
        s.waiters.countP (fun r => s.homeUnit r.loc == s.homeUnit l) < Config.maxWaiters →
        ∃ t, exec (.await k m g) s = .next t ∧ SameBytes s t ∧
          SetAside s t cid gid n (.token [tok] false tok none [] 0 false) false (readX s m).toNat s.hart.ctx.pc ∧
          { gran := tokenGran tok, loc := l, who := .core cid } ∈ t.waiters) ∧
      (signalledBy (s.syncGen l) tok = false → s.hart.level ≠ .user → ∃ t mark, exec (.await k m g) s = .next t ∧
        t.hart = { s.hart with issued := some mark } ∧ SameBytes s t)) ∧
    (∀ (d l m : Reg) (n : BitVec 6) (inb g : Bool) (toks : List Word) (hs : List Bool), WellFormed (.awaitany d l m n inb g) →
      CleanX s [l, m] → (s.hart.tokens = some toks ∨
        (s.hart.tokens = none ∧ s.issue.tokenList (readX s l) n.toNat 0 = .ok (s.issue, toks))) →
      (List.range toks.length).mapM (fun i => s.issue.tokenRead (toks.getD i 0) i) = .ok (hs.map some) →
      (∀ i, hs.findIdx? id = some i → ∃ t, exec (.awaitany d l m n inb g) s = .next t ∧ done t d (word i)) ∧
      (hs.findIdx? id = none → inb = true → ∀ mark, s.hart.issued = some mark → mark < (s.core s.cid).inboxSeen →
        ∃ t, exec (.awaitany d l m n inb g) s = .next t ∧ done t d (word n.toNat)) ∧
      (hs.findIdx? id = none → s.hart.issued = none → ∀ cid h gid j, Runner s cid h gid j →
        ((s.core cid).coro gid j).isSome = true → CacheRoom s cid gid j (readX s m).toNat g → ∃ t, exec (.awaitany d l m n inb g) s = .next t ∧ SameBytes s t ∧
          SetAside s t cid gid j (if n = 0 then .inbox d.val else .token toks inb (readX s l) none [] d.val false) false
            (readX s m).toNat s.hart.ctx.pc))

/-- LDFE reads a full word and empties it, STFE fills an empty one, FESET and FECLR set the bit; else the coroutine
waits (R86, R256, R85). -/
def Obligations.FullEmpty : Prop :=
  ∀ (s : State) (a : Reg) (p : Spot) (l : Loc), Calm s → s.locate s.view (readX s a).toNat 8 8 true = .ok p → p.tiers = [] →
    p.locs = l.run 8 → l.word = l → MemoriesWf s → Unheld s (l.run 8) → NoLoops s (l.run 8) → CleanX s [a] →
    let va := readX s a
    let marked := fun (t : State) (f : Bool) => ∀ x : Loc, t.fullAt x = if s.storage x.word = s.storage l then f else s.fullAt x
    ((∀ f ∈ s.feHeld, f.loc ≠ l) →
      (∀ d, s.fullAt l = true → s.poisonCheck p.locs va.toNat = .ok () → ∃ t, exec (.ldfe d a 0 false) s = .next t ∧
        t.hart = (wroteX s d (word (s.num l 8))).hart ∧ SameBytes s t ∧ marked t false) ∧
      (∀ x, s.fullAt l = false → CleanX s [x] → Released s → Storable s (l.run 8) → ∃ t, exec (.stfe x a 0 false) s = .next t ∧
        t.hart = (wentTo s (s.hart.ctx.pc + 4)).hart ∧ Stored s t (l.run 8) (bytesOf 8 (readX s x).toNat) ∧ marked t true) ∧
      (∀ e ∈ [(Instr.feset a 0 false, true), (.feclr a 0 false, false)], ∃ t, exec e.1 s = .next t ∧
        t.hart = (wentTo s (s.hart.ctx.pc + 4)).hart ∧ SameBytes s t ∧ marked t e.2)) ∧
    (∀ d cid h g n, s.fullAt l = false → Runner s cid h g n → ((s.core cid).coro g n).isSome = true →
      CacheRoom s cid g n fullMask s.hart.ctx.m →
      ∃ t, exec (.ldfe d a 0 false) s = .next t ∧ SameBytes s t ∧ SameFull s t ∧
        SetAside s t cid g n (.fe false va) false fullMask s.hart.ctx.pc ∧
        t.feHeld = s.feHeld ++ [{ loc := l, lines := p.lines, stfe := false, v := 0, who := .coro cid g n d.val }]) ∧
    (∀ x cid h g n, s.fullAt l = true → CleanX s [x] → Released s → Runner s cid h g n →
      ((s.core cid).coro g n).isSome = true → CacheRoom s cid g n fullMask s.hart.ctx.m →
      ∃ t, exec (.stfe x a 0 false) s = .next t ∧ SameBytes s t ∧ SameFull s t ∧
        SetAside s t cid g n (.fe true va) false fullMask s.hart.ctx.pc ∧
        t.feHeld = s.feHeld ++ [{ loc := l, lines := p.lines, stfe := true, v := readX s x, who := .coro cid g n 0 }]) ∧
    (∀ f cid g n d, s.feHeld = [f] → f.loc = l → f.stfe = false → s.poisonAt l = false → f.who = .coro cid g n d →
      (∀ k, (s.core cid).coro g n = some k → k.resident = true) → ∃ t,
      exec (.feset a 0 false) s = .next t ∧ SameBytes s t ∧ marked t false ∧ t.feHeld = [])

/-- AMO replaces a word by the value its operation gives and returns the old one, extended by sign (R258, R257, R112).
-/
def Obligations.LocalAtomics : Prop :=
  ∀ (s : State) (d a b : Reg) (sc : BitVec 3) (o : BitVec 2) (z : Bool) (p : BitVec 4) (q : Spot),
    let n := if z then 8 else 4
    let w := 8 * n
    let va := (readX s a).toNat
    Calm s → CleanX s (a :: if p = 9 then [b, b + 1] else [b]) → WellFormed (.amo d a b sc o z p) → (2 ≤ o.toNat → Released s) → s.locate s.view va n n true = .ok q → q.tiers = [] →
    s.poisonCheck q.locs va = .ok () → Storable s q.locs →
    let old := s.numAt q.locs
    let x := (readX s b).toNat % 2 ^ w
    let y := (readX s (b + 1)).toNat % 2 ^ w
    let int := fun v : Nat => (BitVec.ofNat w v).toInt
    let new := match p.toNat with
      | 0 => (old + x) % 2 ^ w
      | 1 => if int old ≤ int x then old else x
      | 2 => if int x ≤ int old then old else x
      | 3 => min old x
      | 4 => max old x
      | 5 => old &&& x
      | 6 => old ||| x
      | 7 => old ^^^ x
      | 8 => x
      | _ => if old = x then y else old
    ∃ t, exec (.amo d a b sc o z p) s = .next t ∧ t.hart = (wroteX s d (BitVec.ofInt 64 (int old))).hart ∧
      Stored s t q.locs (bytesOf n new) ∧ SameFull s t

/-- A remote synchronisation word or atomic draws one unit, sends its request and waits; without units the coroutine is
set aside (R35, R82, R121, R245, R252, R256). Model choices: a hart waits in place for an answer (log entry 8), and a
coroutine's stores to an endpoint keep one order (log entry 87). -/
def Obligations.RemoteAsks : Prop :=
  ∀ s : State, Calm s → ∀ (d a b e k : Reg) (o : BitVec 2) (z : Bool) (p : BitVec 4),
    let tok := readX s k
    let va := readX s a
    let away := tokenEp tok ≠ s.fabric.eid ∧ granNames (tokenGran tok) = true
    let epD := (readX s d).toNat % 8192
    let epE := (readX s e).toNat % 8192
    let size := if z then 8 else 4
    let word8 := fun (op : Nat) (x : Word) => va.toNat % 8 = 0 ∧ remoteStraddles va.toNat 8 = false ∧ NoOwnStores s epE va.toNat 8 ∧
      s.feAsked epE (.fe op va x) = false
    ∀ r : Instr × Prop × Nat × ReqOp × Cont,
      r ∈ [(Instr.ratom d a b o z p, WellFormed (.ratom d a b o z p) ∧ CleanX s (d :: a :: if p = 9 then [b, b + 1] else [b]) ∧ va.toNat % size = 0 ∧
                remoteStraddles va.toNat size = false ∧ NoOwnStores s epD va.toNat size ∧ (2 ≤ o.toNat → Released s),
              epD, ReqOp.atomic p z va (readX s b) (readX s (b + 1)), Cont.ratom s.focus d.val z),
           (.ldfe d a e true, CleanX s [a, e] ∧ word8 0 0, epE, .fe 0 va 0, .fe s.focus d.val true),
           (.stfe d a e true, CleanX s [d, a, e] ∧ word8 1 (readX s d) ∧ Released s, epE, .fe 1 va (readX s d), .fe s.focus 0 false),
           (.feset a e true, CleanX s [a, e] ∧ word8 2 0, epE, .fe 2 va 0, .fe s.focus 0 false),
           (.feclr a e true, CleanX s [a, e] ∧ word8 3 0, epE, .fe 3 va 0, .fe s.focus 0 false),
           (.arrive k b, CleanX s [k, b] ∧ away ∧ (readX s b).toNat < 2 ^ 40 ∧ Released s, tokenEp tok, .contribute tok (readX s b).toNat, .arrive s.focus),
           (.sgen d k, CleanX s [k] ∧ away ∧ NoOwnStores s (tokenEp tok) 0 0, tokenEp tok, .syncRead tok, .sgen s.focus d.val tok)] →
      r.2.1 →
      let ep := r.2.2.1
      (HasUnits s ep 1 → ∃ t, exec r.1 s = .next t ∧ Asked s t ep r.2.2.2.1 r.2.2.2.2 ∧ SameBytes s t ∧
        t.hart = { s.hart with run := .remote s.fabric.nextRid } ∧ t.fabric.unitsFor ep = s.fabric.unitsFor ep - 1) ∧
      (s.fabric.waits = [] → s.fabric.unitsFor ep = 0 → ∀ cid h g n, Runner s cid h g n → ((s.core cid).coro g n).isSome = true →
        CacheRoom s cid g n fullMask s.hart.ctx.m →
        ∃ t, exec r.1 s = .next t ∧ SetAside s t cid g n (.allowance ep 1 (s.groupOf ep)) false fullMask s.hart.ctx.pc ∧ SameBytes s t ∧
          t.fabric.waits = [{ ep := ep, u := 1, got := 0, who := .coro cid g n }])

/-- A fence completes once the remote stores before it are acknowledged; buffered lines leave first (R113, R117, R119,
R136, R259). -/
def Obligations.Fences : Prop :=
  ∀ (s : State) (c : BitVec 3), Calm s → c.toNat ≤ 4 →
    let ends := fun u : State => wentTo { u with hart := { u.hart with ahead := [] } } (u.hart.ctx.pc + 4)
    (∀ i ∈ [Instr.fenceRel c, .fenceAr c, .fenceSc c, .lsync],
      (Released s → exec i s = .next (ends s)) ∧
      (s.isFw = false → s.combined = false → s.storesOut = true → exec i s = .next s)) ∧
    (s.isFw = true ∨ s.combined = false → exec (.fenceAcq c) s = .next (ends s)) ∧
    (s.isFw = false → s.combined = true → ∀ i ∈ [Instr.fenceRel c, .fenceAcq c, .fenceAr c, .fenceSc c, .lsync],
      let k := s.core s.cid
      let all := k.comb.map fun l => { l with due := l.due || l.owner == s.own }
      let go := (all.filter (·.due)).take (64 - k.outq.length)
      (64 ≤ k.outq.length → exec i s = .next s) ∧
      (k.outq.length < 64 → ∃ t, exec i s = .next t ∧ t.hart = s.hart ∧ SameBytes s t ∧
        (t.core s.cid).outq = k.outq ++ go.map (CombLine.store s.groupOf) ∧
        (t.core s.cid).comb = (all.filter fun l => !go.contains l) ∧
        Turn.event (.remoteStoreSend s.cid) ∈ t.agenda))

/-- CP, CP.G, CP.S, RGET and RPUT issue a copy under a transfer ID, with the units of its first packet drawn (R246,
R247, R248, R249, R250). Model choices: the number under which a firmware core issues its copies (log entry 22), that
the first copy of a core counts 0 (log entry 108), and what the limits of a block apply to (log entries 110, 111). -/
def Obligations.CopyIssue : Prop :=
  ∀ (s : State) (d a e : Reg) (v : BitVec 6) (x q : Bool) (k : BitVec 3) (blk : Nat), Calm s → CleanX s [a, e] →
    let pb := readX s a
    s.loadNum pb.toNat 128 64 = .ok (s, blk) →
    let w := (List.range 16).map fun i => blk / 2 ^ (64 * i) % 2 ^ 64
    let cid := s.cid
    ∀ (r : Instr × Nat × Nat × Option (List (Word × Word))) (rs : List (Word × Word)),
      r ∈ [(Instr.cp d a, 0, 0, none), (.cpG d a v x q k, 1, 0, some rs), (.cpS d a v x q k, 2, 0, some rs),
           (.rget d a e, 3, (readX s e).toNat % 8192, none), (.rput d a e, 4, (readX s e).toNat % 8192, none)] →
      WellFormed r.1 → (r.2.2.2 ≠ none → v.toNat < regCount s.hart.ctx.vn ∧ ∀ o ∈ s.regCopies, o.p.vd ≠ v.toNat) →
      (paramsOk r.2.1 s.vbytes (regCount s.hart.ctx.vn) w = false →
        exec r.1 s = .next (s.swordTrap { cause := .copyParam, val := pb })) ∧
      (paramsOk r.2.1 s.vbytes (regCount s.hart.ctx.vn) w = true →
        (r.2.2.2 = some rs → s.gatherRows r.2.1 (paramsOf w) v x q k = .ok rs) →
        let p := if namesEp r.2.1 (paramsOf w) then paramsOf w else { paramsOf w with ep := r.2.2.1 }
        let c := fun total : Nat => ({
          id := word (cid * 2 ^ 32 + (s.core cid).xfers), cid := cid, gid := (s.hart.occ.getD (65536, 0)).1,
          coid := (s.hart.occ.getD (65536, 0)).2, sup := s.hart.level != .user, p := p, pblk := pb, rows := r.2.2.2, landed := [],
          total := total, got := 0, paid := 0, vstart := 0, held := .no, first := true, reported := none, agent := s.focus,
          vlz := statusBit s.hart.sstatus 60 } : Copy)
        let total := p.e0 * (c 0).rowCount
        let u := if total = 0 then 0 else if p.dk = 2 then unitsOf (c total).firstPacket else if p.sk = 2 then 1 else 0
        let cores := match s.view.gang with | some g => g.cores.length | none => 0
        (∀ j < (c 0).rowCount, rowOk cores p.sk ((c 0).row j).1.toNat p.e0 = true ∧
          (3 ≤ p.dk ∨ rowOk cores p.dk ((c 0).row j).2.toNat p.e0 = true)) →
        (s.copies.filter fun o => o.cid == cid).length < Config.maxCopies →
        (p.dk = 3 → s.regCopies.length < Config.maxRegCopies ∧ ∀ o ∈ s.regCopies, o.p.vd ≠ p.vd) →
        Released s → (u ≠ 0 → HasUnits s p.ep u) →
        ∃ t, exec r.1 s = .next t ∧ t.hart = (wroteX s d (c total).id).hart ∧ t.copies = s.copies ++ [c total] ∧
          (t.core cid).xfers = ((s.core cid).xfers + 1) % 2 ^ 32 ∧ SameBytes s t ∧
          Turn.event (.copyPieceLand (c total).id.toNat 0 0 0) ∈ t.agenda ∧
          (u ≠ 0 → t.fabric.unitsFor p.ep = s.fabric.unitsFor p.ep - u))

/-- MSEND sends type, payload and units to the core of xt, numbered per pair of cores, and draws the units (R260, R400,
R92, R96). Model choices: the pair of cores is counted without the endpoint (log entry 62), and stores to an endpoint
stay ahead of a message to it (log entry 87). -/
def Obligations.MessageSend : Prop :=
  ∀ (s : State) (t a : Reg) (u : BitVec 2) (y : BitVec 8) (x : Nat), Calm s → CleanX s [t, a] → WellFormed (.msend t a u y) → s.isFw = false →
    let units := u.toNat + 1
    let ep := bits (readX s t).toNat 12 0
    let dcid := bits (readX s t).toNat 42 32
    let n := (s.fabric.msgSeq.lookup (s.cid, dcid)).getD 0
    let m : Msg := { type := y.toNat, sep := s.fabric.eid, scid := s.cid, units := units, seq := n, payload := bytesOf (64 * units - 8) x }
    s.loadNum (readX s a).toNat (64 * units - 8) 1 = .ok (s, x) → NoOwnStores s ep 0 0 → HasUnits s ep units →
    ∃ z, exec (.msend t a u y) s = .next z ∧ z.hart = (wentTo s (s.hart.ctx.pc + 4)).hart ∧ SameBytes s z ∧
      z.fabric.unitsFor ep = s.fabric.unitsFor ep - units ∧
      z.fabric.msgSeq.lookup (s.cid, dcid) = some ((n + 1) % 2 ^ 24) ∧
      ((∀ k ∈ s.fabric.kept, ¬ (k.ep = ep ∧ k.cid = s.cid ∧ k.dcid = dcid)) →
        Asked s z ep (.msg dcid m) (.msg s.cid s.own.1 s.own.2) ∧ z.fabric.kept = s.fabric.kept) ∧
      ((∃ k ∈ s.fabric.kept, k.ep = ep ∧ k.cid = s.cid ∧ k.dcid = dcid) →
        z.fabric.sent = s.fabric.sent ∧
        z.fabric.kept = s.fabric.kept ++ [{ ep := ep, cid := s.cid, gid := s.own.1, coid := s.own.2, dcid := dcid, msg := m }])

/-- SPAWN creates a ready coroutine with x1 to xn, YIELD lets another ready one run, CEXIT retires the running one (R21,
R25, R26, R261, R262). Model choices: the core on which SPAWN creates, and its wait (log entry 60), and the poison marks
of x1 to xn (log entry 68). -/
def Obligations.Coroutines : Prop :=
  (∀ (s : State) (d a : Reg) (n : BitVec 5) (g : Gang), Calm s → CleanX s [a] → MayAct s true → Released s → s.view.gang = some g →
    (readX s a).toNat % 4 = 0 →
    (∀ c base t, s.spawnCore g = some c → base = (((s.core s.cid).coro g.gid s.own.2).map (·.base)).getD 0 →
      s.create g c base (spawnCtx s.hart.ctx n.toNat (readX s a)) none = .error t →
      exec (.spawn d a n) s = .next t ∧ t.hart = s.hart ∧ SameBytes s t ∧ (t.core c).coros = (s.core c).coros) ∧
    (∀ c, s.spawnCore g = some c → SlotFree s c s.hart.ctx.vn → ∃ t k, exec (.spawn d a n) s = .next t ∧
      t.hart = (wroteX s d (word (s.nextCoid g))).hart ∧ SameBytes s t ∧ k ∈ (t.core c).coros ∧
      (t.core c).coros.length = (s.core c).coros.length + 1 ∧
      k.gid = g.gid ∧ k.coid = s.nextCoid g ∧ k.met = true ∧ k.running = false ∧ k.wait = .ready ∧
      k.ctx = { Ctx.fresh s.hart.ctx.vn with
        pc := readX s a, cbyp := s.hart.ctx.cbyp, tiernote := s.hart.ctx.tiernote
        x := Vector.ofFn fun i : Fin 32 => if i.val ≤ n.toNat then readX s i else 0
        poison := s.hart.ctx.poison.filter fun w => w.kind == 4 && decide (w.num ≤ n.toNat) }) ∧
    (s.spawnCore g = none → exec (.spawn d a n) s = .next (s.swordTrap { cause := .spawnFull, val := readX s a }))) ∧
  (∀ (s : State) (cid h g n : Nat), Calm s → Runner s cid h g n →
    let other := ∃ k ∈ (s.core cid).coros, k.home = h ∧ k.running = false ∧ k.met = true ∧ k.pre = false
    (¬ other → exec .yield s = .next (wentTo s (s.hart.ctx.pc + 4))) ∧
    (other → ((s.core cid).coro g n).isSome = true → CacheRoom s cid g n fullMask s.hart.ctx.m → ∃ t, exec .yield s = .next t ∧ SameBytes s t ∧
      SetAside s t cid g n .ready true fullMask (s.hart.ctx.pc + 4)) ∧
    (Released s → ∃ t, exec .cexit s = .next t ∧ t.hart.run = .idle ∧ t.hart.occ = none ∧ t.hart.ctx = Ctx.fresh 0 ∧
      (t.core cid).coro g n = none ∧
      (∀ k, s.view.gang = some k → k.job = none → (s.core cid).spillWaits = false → s.overFull cid = false → SameBytes s t))) ∧
  (∀ s : State, Calm s → MayAct s true → s.hart.level ≠ .user → exec .yield s = .next (wentTo s (s.hart.ctx.pc + 4)))

/-- GALLOC gives the lowest aligned free range of the heap, or 0; GFREE frees a live allocation or raises HEAP_FREE
(R263). That GFREE x0 is the form with register number 0 is the model's reading (log entry 19). -/
def Obligations.HeapWords : Prop :=
  ∀ (s : State) (g : Gang),
    let ordered := fun k : Gang => k.heap.Pairwise (fun e f => e.1 + e.2 ≤ f.1) ∧
      ∀ e ∈ k.heap, 0 < e.2 ∧ k.heapBase ≤ e.1 ∧ e.1 + e.2 ≤ k.heapBase + k.heapSize
    Calm s → MayAct s true → s.view.gang = some g → ordered g →
    (∀ (d r : Reg) (l : BitVec 5), CleanX s [r] → WellFormed (.galloc d r l) →
      let n := ((readX s r).toNat + 63) / 64 * 64
      let fits := fun a : Nat => a % 2 ^ l.toNat = 0 ∧ g.heapBase ≤ a ∧ a + n ≤ g.heapBase + g.heapSize ∧
        ∀ e ∈ g.heap, a + n ≤ e.1 ∨ e.1 + e.2 ≤ a
      (∀ a, n ≠ 0 → fits a → (∀ b, fits b → a ≤ b) → ∃ t, exec (.galloc d r l) s = .next t ∧
        t.hart = (wroteX s d (word a)).hart ∧ SameBytes s t ∧
        ∃ k ∈ t.gangs, k.gid = g.gid ∧ k.part = g.part ∧ (a, n) ∈ k.heap ∧ (∀ e ∈ g.heap, e ∈ k.heap) ∧ ordered k) ∧
      ((n = 0 ∨ ∀ a, ¬ fits a) → exec (.galloc d r l) s = .next (wroteX s d 0))) ∧
    (CleanX s [0] → exec (.gfree 0) s = .next (wentTo s (s.hart.ctx.pc + 4))) ∧
    (∀ a : Reg, a ≠ 0 → CleanX s [a] → Released s →
      ((∃ e ∈ g.heap, e.1 = (readX s a).toNat) → ∃ t, exec (.gfree a) s = .next t ∧
        t.hart = (wentTo s (s.hart.ctx.pc + 4)).hart ∧ SameBytes s t ∧
        ∃ k ∈ t.gangs, k.gid = g.gid ∧ k.part = g.part ∧ k.heap = (g.heap.filter fun e => e.1 != (readX s a).toNat) ∧ ordered k) ∧
      ((∀ e ∈ g.heap, e.1 ≠ (readX s a).toNat) →
        exec (.gfree a) s = .next (s.swordTrap { cause := .heapFree, val := readX s a })))

/-- GDECL declares a grid under the lowest free handle, GSTEP publishes a step, GWAIT waits for ghosts, GDROP ends a
grid (R265, R266, R267, R127). Model choices: what GDECL checks beyond R123 (log entries 70, 71, 93). -/
def Obligations.GridWords : Prop :=
  ∀ s : State, Calm s → MayAct s true →
    (∀ (d a : Reg) (k : Gang) (x h : Nat) (u : State), CleanX s [a] → s.loadNum (readX s a).toNat 128 64 = .ok (s, x) → s.view.gang = some k →
      let mine := s.grids.filter fun g => g.part == k.part && g.gid == k.gid
      let g : Grid := { gid := k.gid, part := k.part, handle := 65536, blocks := []
                        desc := (List.range 16).map fun i => word (x / 2 ^ (64 * i)) }
      let n := g.localCount s.fabric.eid
      let fits := g.parent = 0xFFFF ∨ ∃ p, g.parentIn mine = some p ∧ g.patchOk p = true ∧
        g.patchLate p (g :: mine) s.fabric.eid = false ∧ g.parentTokens p (g :: mine) s.fabric.eid = []
      g.fieldsOk = true → fits → s.gridFits g k = true → (∀ o ∈ mine, o.key ≠ g.key) → g.sync % 32 = 0 →
      g.sync + 32 * n ≤ Config.syncEnd → h < Config.maxGrids → (∀ o ∈ mine, o.handle ≠ h) → (∀ j < h, ∃ o ∈ mine, o.handle = j) →
      s.initWords g n = .ok u →
      ∃ t r, exec (.gdecl d a) s = .next t ∧ t.hart = (wroteX s d (word h)).hart ∧ t.grids = s.grids ++ [r] ∧
        r.gid = k.gid ∧ r.part = k.part ∧ r.handle = h ∧ r.desc = g.desc ∧ r.blocks.length = n ∧
        (∀ b ∈ r.blocks, b.pub = none ∧ b.complete = 0 ∧ b.unread = false ∧ b.stepper = none) ∧ SameBytes u t) ∧
    (∀ (d a : Reg) (k : Gang) (x : Nat), CleanX s [a] → s.loadNum (readX s a).toNat 128 64 = .ok (s, x) → s.view.gang = some k →
      let mine := s.grids.filter fun g => g.part == k.part && g.gid == k.gid
      let g : Grid := { gid := k.gid, part := k.part, handle := 65536, blocks := []
                        desc := (List.range 16).map fun i => word (x / 2 ^ (64 * i)) }
      (g.fieldsOk = false ∨ s.gridFits g k = false ∨ (∃ o ∈ mine, o.key = g.key) ∨
        (g.parent ≠ 0xFFFF ∧ (g.parentIn mine = none ∨ ∃ p, g.parentIn mine = some p ∧
          (g.patchOk p = false ∨ g.patchLate p (g :: mine) s.fabric.eid = true))) →
        exec (.gdecl d a) s = .next (s.swordTrap { cause := .gridDesc, val := readX s a })) ∧
      (∀ p tok r, g.fieldsOk = true → s.gridFits g k = true → (∀ o ∈ mine, o.key ≠ g.key) → g.sync % 32 = 0 →
        g.sync + 32 * g.localCount s.fabric.eid ≤ Config.syncEnd → g.parent ≠ 0xFFFF → g.parentIn mine = some p → g.patchOk p = true →
        g.patchLate p (g :: mine) s.fabric.eid = false → g.parentTokens p (g :: mine) s.fabric.eid = tok :: r →
        (∀ e ∈ s.fabric.awaits, e.1 ≠ s.focus) →
        exec (.gdecl d a) s = .next (s.ask (tokenEp tok) (.syncRead tok) (.await s.focus 0)))) ∧
    (∀ (x j : Reg) (gr : Grid) (k : Gang) (st : Nat) (b : GBlock), CleanX s [x, j] → s.taggedGrid (readX s x) = .ok (gr, k, st) →
      let n := (readX s j).toNat
      n < gr.localCount s.fabric.eid → gr.block n = some b →
      (k.cores[n / max 1 gr.bpc]? = some s.cid →
        (b.pub = some st → b.unread = false → exec (.gstep x j) s = .next (wentTo s (s.hart.ctx.pc + 4))) ∧
        ((match b.pub with | none => st = gr.step0 | some p => st = p + 1) → (∀ o ∈ s.gangGrids gr, o.regions = []) → Released s →
          ∃ t g2 b2, exec (.gstep x j) s = .next t ∧ t.hart = (wentTo s (s.hart.ctx.pc + 4)).hart ∧
            t.gridOf k.part k.gid gr.handle = some g2 ∧ g2.block n = some b2 ∧ b2.pub = some st ∧ b2.unread = false) ∧
        ((match b.pub with | none => st = gr.step0 | some p => st = p + 1) → Released s →
          let u := s.publish gr n st
          ∀ g3, u.gridOf k.part k.gid gr.handle = some g3 →
            let ds := u.fedBlocks g3 (g3.globalOf u.fabric.eid n)
            let needs := fun d : Grid => st + 1 - d.depth
            let ok := fun i d blk => st + 1 < d.depth + d.step0 ∨ u.stepReached d blk (needs d) i = some true
            (∀ ps, (∀ i d blk, ds[i]? = some (d, blk) → ok i d blk) → u.forget.pushesOf g3 k n st = .ok ps →
              ∃ t, exec (.gstep x j) s = .next t ∧ t.hart = (wentTo s (s.hart.ctx.pc + 4)).hart ∧ t.pushes = u.pushes ++ ps) ∧
            (∀ i d blk cid h g c, ds[i]? = some (d, blk) → ¬ st + 1 < d.depth + d.step0 → u.stepReached d blk (needs d) i = some false →
              (∀ m d' blk', m ≠ i → ds[m]? = some (d', blk') → ok m d' blk') → Runner s cid h g c →
              ((s.core cid).coro g c).isSome = true → CacheRoom u cid g c fullMask s.hart.ctx.m →
              ∃ t, exec (.gstep x j) s = .next t ∧ SameBytes u t ∧
                SetAside s t cid g c (.token [d.wordToken (d.epOf blk) (d.localOf blk) true (needs d)] false 0 none [] 0 true) false
                  fullMask s.hart.ctx.pc))) ∧
      (st < gr.step0 + b.complete → exec (.gwait x j) s = .next (wentTo s (s.hart.ctx.pc + 4))) ∧
      (gr.step0 + b.complete ≤ st → ∀ cid h g c, Runner s cid h g c → ((s.core cid).coro g c).isSome = true →
        CacheRoom s cid g c fullMask s.hart.ctx.m →
        ∃ t, exec (.gwait x j) s = .next t ∧ SameBytes s t ∧
          SetAside s t cid g c (.token [gr.wordToken s.fabric.eid n false st] false 0 none [] 0 true) false fullMask s.hart.ctx.pc)) ∧
    (∀ (x : Reg) (gr : Grid) (k : Gang) (st : Nat), CleanX s [x] → s.taggedGrid (readX s x) = .ok (gr, k, st) →
      (∀ p ∈ s.gangGrids gr, p.parent ≠ gr.handle) → s.stepWaits gr = false →
      (∀ p ∈ s.pushes, ¬ (p.part = k.part ∧ p.gid = k.gid ∧ p.srcKey = gr.key)) →
      ∃ t, exec (.gdrop x) s = .next t ∧ t.hart = (wentTo s (s.hart.ctx.pc + 4)).hart ∧ SameBytes s t ∧
        t.grids = s.grids.filter fun p => !(p.part == gr.part && p.gid == gr.gid && p.handle == gr.handle))

/-- VNOP and VPREF have no effect, VSTOP ends the block, MSTART and MSTOP switch matrix mode, VSQ.DROP empties the queue
(R141, R209, R228, R230, R236, R221, R52). -/
def Obligations.BlockControl : Prop :=
  ∀ (s : State) (p : Shape) (w : EWord) (b : Block), Clean s →
    (∀ i ∈ [Instr.vnop w, .vpref w], AtWord i p w b s →
      ∃ t, exec i s = .next t ∧ WordDone s t b false 0 ∧ KeepsRest s t ∧ KeepsRegs s t) ∧
    (AtWord (.vstop w) p w b s → ∀ u, (if s.hart.ctx.strip = none then s.commitAll = .ok u else u = s) →
      exec (.vstop w) s = .next { u with hart := { u.hart with
        blocks := s.hart.blocks.tail, ctx := { u.hart.ctx with
          eCount := u.hart.ctx.eCount + if b.user then 1 else 0
          vstart := match s.hart.blocks.tail with
            | n :: _ => if n.vstart = 0 then u.hart.ctx.vstart else n.vstart
            | [] => u.hart.ctx.vstart } } }) ∧
    (∀ i ∈ [(Instr.mstart w, true), (.mstop w, false)], AtWord i.1 p w b s →
      ∃ t, exec i.1 s = .next t ∧ WordDone s t b false 0 ∧ t.hart.pend = s.hart.pend ∧ t.hart.ctx.m = i.2 ∧
        t.hart.ctx.x = s.hart.ctx.x ∧ t.hart.ctx.v = s.hart.ctx.v ∧ t.hart.ctx.k = s.hart.ctx.k ∧
        (s.hart.ctx.m = i.2 → KeepsTiles s t) ∧
        (s.hart.ctx.m ≠ i.2 → t.hart.ctx.t = Vector.replicate 4 0 ∧ t.hart.ctx.bl = 0)) ∧
    (AtWord (.vsqDrop w) p w b s →
      ∃ t, exec (.vsqDrop w) s = .next t ∧ WordDone s t b true 0 ∧ KeepsCtx s t ∧ KeepsRegs s t ∧
        t.hart.pend = if s.hart.ctx.strip = none ∨ b.vl = 0 then s.hart.pend else [])

/-- Closing a strip and VSQ.COMMIT perform the pending stores in order: each byte gets the last pending value that
covers it (R219, R220, R177, R109, R299). -/
def Obligations.StoreCommits : Prop :=
  ∀ s : State, MemoriesWf s → NothingLoops s → NoRecords s →
    let alone := fun l : Loc => ∀ q ∈ s.hart.pend, ∀ e ∈ q.bytes, s.storage e.1 = s.storage l → e.1 = l
    (∀ q ∈ s.hart.pend, q.remote = none ∧ q.poisoned = false ∧ q.tiers = [] ∧ (q.bytes.map (·.1)).Nodup ∧ (∀ e ∈ q.bytes, Plain s e.1) ∧
      Unheld s (q.bytes.map (·.1))) →
    (s.hart.blocks = [] → ∃ u, Closes s u ∧ (∀ l, alone l → u.byteAt l = pendingByte s.hart.pend l (s.byteAt l)) ∧ SameFull s u ∧
      u.hart = { s.hart with
        pend := [], ctx := { s.hart.ctx with strip := none }
        committing := if s.hart.ctx.strip = none then s.hart.committing else false
        sstatus := if s.hart.ctx.strip = none then s.hart.sstatus else setBit s.hart.sstatus 59 false }) ∧
    (∀ p w b, Clean s → AtWord (.vsqCommit w) p w b s → s.hart.ctx.strip ≠ none → 0 < b.vl →
      ∃ t, exec (.vsqCommit w) s = .next t ∧ SameFull s t ∧ t.hart.pend = [] ∧
        (∀ l, alone l → t.byteAt l = pendingByte (s.hart.pend.filter fun q => acts s b w q.idx) l (s.byteAt l)) ∧
        t.hart.blocks = { b with idx := b.idx + 1 } :: s.hart.blocks.tail ∧
        t.hart.ctx = { s.hart.ctx with vstart := 0, eCount := s.hart.ctx.eCount + if b.user then 1 else 0 }) ∧
    (∀ b x, MayTrap s → s.hart.ctx.strip = none → s.hart.unchecked = [] → s.hart.blocks.head? = some b →
      ∃ t, exec (.unallocatedOpcode (.eword x)) s = .next t ∧ SameFull s t ∧ t.hart.pend = [] ∧ t.hart.blocks = [] ∧
        (∀ l, alone l → t.byteAt l = pendingByte s.hart.pend l (s.byteAt l)) ∧
        t.hart.suspended = s.hart.suspended ++ { b with vstart := s.hart.ctx.vstart, raise := none } :: s.hart.blocks.tail)

/-- The integer E-words write each active element of vd with the value of their row, and nothing else (R190, R191, R192,
R193, R63, R185). -/
def Obligations.IntegerElements : Prop :=
  ∀ (s : State) (p : Shape) (w : EWord) (b : Block), Clean s →
    let t0 := etypeOf w.ty
    let k := etypeBits t0
    let int := intOf t0
    let lo : Int := if isSigned t0 then -(2 ^ (k - 1)) else 0
    let hi : Int := if isSigned t0 then 2 ^ (k - 1) - 1 else 2 ^ k - 1
    let mod := fun z : Int => ((z % 2 ^ k).toNat, 0)
    let clamp := fun z : Int => ((max lo (min hi z) % 2 ^ k).toNat, if z < lo ∨ hi < z then 32 else 0)
    let m := fun y : Nat => if bit w.fn.toNat 6 then bits w.fn.toNat 5 0 else y % k
    ∀ r : Instr × (Nat → Nat → Nat → Nat × Nat),
      (isFloat t0 = false ∧ r ∈ [(Instr.vadd w, fun x y _ => mod (int x + int y)), (.vsub w, fun x y _ => mod (int x - int y)),
          (.vmul w, fun x y _ => mod (int x * int y)), (.vfma w, fun x y z => mod (int x * int y + int z)),
          (.vfms w, fun x y z => mod (int x * int y - int z)), (.vfnma w, fun x y z => mod (int z - int x * int y)),
          (.vmulh w, fun x y _ => mod (int x * int y / 2 ^ k)), (.vsadd w, fun x y _ => clamp (int x + int y)),
          (.vssub w, fun x y _ => clamp (int x - int y)), (.vmin w, fun x y _ => mod (min (int x) (int y))),
          (.vmax w, fun x y _ => mod (max (int x) (int y))), (.vabs w, fun x _ _ => mod |int x|),
          (.vneg w, fun (x _ _ : Nat) => mod (-(x : Int)))]) ∨
        r ∈ [(Instr.vshl w, fun (x y _ : Nat) => mod ((x * 2 ^ m y : Nat) : Int)), (.vshr w, fun (x y _ : Nat) => (x / 2 ^ m y, 0)),
          (.vsra w, fun (x y _ : Nat) => mod ((BitVec.ofNat k x).toInt / 2 ^ m y)), (.vand w, fun (x y _ : Nat) => (x &&& y, 0)),
          (.vor w, fun (x y _ : Nat) => (x ||| y, 0)), (.vxor w, fun (x y _ : Nat) => (x ^^^ y, 0)),
          (.vnot w, fun (x _ _ : Nat) => (2 ^ k - 1 - x, 0)),
          (.vclz w, fun (x _ _ : Nat) => (((List.range k).find? fun j => bit x (k - 1 - j)).getD k, 0)),
          (.vpopc w, fun (x _ _ : Nat) => ((List.range k).countP fun j => bit x j, 0))] →
      AtWord r.1 p w b s →
      let val := fun e => r.2 (opA s w k e) (opB s b w k e) (opC s w k e)
      ∃ t, exec r.1 s = .next t ∧ WordDone s t b true (orAll ((actList s b w).map fun e => (val e).2)) ∧ KeepsRest s t ∧
        WroteV s t w.vd k (acts s b w) (fun e => (val e).1)

/-- The floating-point E-words write each active element of vd with the value of their row, VEXP2 and VLOG2 with the
model's series (R190, R191, R77, R69, R74, R75). The last place of the exponential and the logarithm is the model's own
series (log entry 11). -/
def Obligations.FloatElements : Prop :=
  ∀ (s : State) (p : Shape) (w : EWord) (b : Block), Clean s → isFloat (etypeOf w.ty) = true →
    let t0 := etypeOf w.ty
    let k := etypeBits t0
    let rm0 := if w.rm.toNat = 7 then b.rm else w.rm.toNat
    let env : FpEnv := { rm := if rm0 = 5 then 0 else rm0, daz := s.hart.ctx.fcsr.getLsbD 9, ftz := s.hart.ctx.fcsr.getLsbD 8, rnd := 0 }
    let v := fread t0 env.daz
    ∀ r ∈ [(Instr.vadd w, fun x y (_ : Nat) => fadd t0 env (v x) (v y)), (.vsub w, fun x y _ => fadd t0 env (v x) (v y).neg),
        (.vmul w, fun x y _ => fmul t0 env (v x) (v y)), (.vfma w, fun x y z => ffma t0 env (v x) (v y) (v z)),
        (.vfms w, fun x y z => ffma t0 env (v x) (v y) (v z).neg), (.vfnma w, fun x y z => ffma t0 env (v x).neg (v y) (v z)),
        (.vdiv w, fun x y _ => fdiv t0 env (v x) (v y)), (.vsqrt w, fun x _ _ => fsqrt t0 env (v x)),
        (.vrsqrt w, fun x _ _ => frsqrt t0 env (v x)), (.vrcp w, fun x _ _ => frcp t0 env (v x)),
        (.vexp2 w, fun x _ _ => fexp2 t0 env (v x)), (.vlog2 w, fun x _ _ => flog2 t0 env (v x)),
        (.vmin w, fun x y _ => fselect t0 env.daz false x y), (.vmax w, fun x y _ => fselect t0 env.daz true x y),
        (.vabs w, fun x _ _ => fsign t0 env.daz false x), (.vneg w, fun x _ _ => fsign t0 env.daz true x)],
      AtWord r.1 p w b s →
      let val := fun e => r.2 (opA s w k e) (opB s b w k e) (opC s w k e)
      ∃ t, exec r.1 s = .next t ∧ WordDone s t b true (orAll ((actList s b w).map fun e => (val e).2)) ∧ KeepsRest s t ∧
        WroteV s t w.vd k (acts s b w) (fun e => (val e).1)

/-- VCVT and VSCALE write each active element of vd with its conversion; integer, scaled and special results are those
of the rules (R63, R68, R72, R76, R78, R206, R207, R243). -/
def Obligations.ConvertElements : Prop :=
  (∀ (s : State) (p : Shape) (w : EWord) (b : Block), Clean s →
    let src := etypeOf (BitVec.ofNat 4 w.fn.toNat)
    let dst := etypeOf w.ty
    let env := fun e => if srEligible src dst then s.eEnvSr b w e else s.eEnv b w
    let x := opA s w (etypeBits src)
    ∀ r ∈ [(Instr.vcvt w, fun e => convert src dst (env e) (bit w.fn.toNat 4) (x e)),
           (.vscale w, fun e => scaleOf src dst (env e) (bit w.fn.toNat 4) (x e) (elem (s.hart.ctx.vreg w.vb) 8 (e / 32)))],
      AtWord r.1 p w b s →
      ∃ t, exec r.1 s = .next t ∧ WordDone s t b true (orAll ((actList s b w).map fun e => (r.2 e).2)) ∧ KeepsRest s t ∧
        WroteV s t w.vd (etypeBits dst) (acts s b w) (fun e => (r.2 e).1)) ∧
  ((∀ (t : EType) (v : FpEnv) (mx satur sub : Bool) (acc : Nat) (ps : List ((Nat × Nat) × (Nat × Nat))), t ∈ [EType.i8, .n8, .i4] →
    let k := etypeBits t
    let term := fun (p : (Nat × Nat) × (Nat × Nat)) => intOf t (p.1.1 % 2 ^ k) * intOf t (p.2.1 % 2 ^ k)
    let x := (BitVec.ofNat 32 acc).toInt + (if sub then -1 else 1) * (ps.map term).sum
    (satur = false ∨ (-2 ^ 31 ≤ x ∧ x < 2 ^ 31) → opaElem t v mx satur sub acc ps = ((x % 2 ^ 32).toNat, 0)) ∧
    (satur = true → 2 ^ 31 ≤ x → opaElem t v mx satur sub acc ps = (2 ^ 31 - 1, 32)) ∧
    (satur = true → x < -2 ^ 31 → opaElem t v mx satur sub acc ps = (2 ^ 31, 32))) ∧
  (∀ (t : EType) (v : FpEnv) (satur sub : Bool) (acc : Nat) (ps : List ((Nat × Nat) × (Nat × Nat))), isFloat t = true →
    let wide := if t = .f64 then EType.f64 else .f32
    let a := fread wide v.daz acc
    let times := fun (x : FVal) (sc : Nat) => match x with | .fin g m e => FVal.fin g m (e + (sc - 127)) | y => y
    opaElem t v false satur sub acc ps = opaFloat wide v a (ps.map fun p => (fread t v.daz p.1.1, fread t v.daz p.2.1)) sub ∧
    ((∀ p ∈ ps, p.1.2 ≠ 0xFF ∧ p.2.2 ≠ 0xFF) → opaElem t v true satur sub acc ps =
      opaFloat wide v a (ps.map fun p => (times (fread t v.daz p.1.1) p.1.2, times (fread t v.daz p.2.1) p.2.2)) sub) ∧
    ((∃ p ∈ ps, p.1.2 = 0xFF ∨ p.2.2 = 0xFF) → t ≠ .f64 → (opaElem t v true satur sub acc ps).1 = 0x7FC00000) ∧
    (∀ g m e, opaFloat wide v (.fin g m e) [(.inf false, .fin false 0 0)] sub = (canonNan wide, 16) ∧
      opaFloat wide v (.fin g m e) [(.inf false, .fin false 1 0)] false = (infMag wide, 0) ∧
      opaFloat wide v (.fin g m e) [(.inf false, .fin false 1 0), (.inf true, .fin false 1 0)] sub = (canonNan wide, 16))) ∧
  (∀ (src dst : EType) (v : FpEnv) (satur : Bool) (x sc : Nat), scalePair src dst satur = true →
    (∀ g m e, sc ≠ 0xFF → fread src v.daz x = .fin g m e →
      (smallFloat src = true → scaleOf src dst v satur x sc = roundFin dst v false false g m (e + (sc - 127))) ∧
      (smallFloat src = false → scaleOf src dst v satur x sc = roundFin dst v satur false g m (e + (127 - sc)))) ∧
    (smallFloat src = true → scaleOf src dst v satur x 0xFF = (if dst = .f32 then 0x7FC00000 else if dst = .f16 then 0x7E00 else 0x7FC0, 0)) ∧
    (smallFloat src = false → fread src v.daz x ≠ .nan true →
      scaleOf src dst v satur x 0xFF = (if dst = .e5m2 then (0x7E, 0) else if dst = .e4m3 then (0x7F, 0) else (0, 16)))) ∧
  (∀ (src dst : EType) (v : FpEnv) (satur : Bool) (x : Nat), isFloat src = false → isFloat dst = false →
    let w := etypeBits dst
    let low : ℤ := if isSigned dst then -(2 ^ (w - 1)) else 0
    let high : ℤ := if isSigned dst then 2 ^ (w - 1) - 1 else 2 ^ w - 1
    let z := intOf src (x % 2 ^ etypeBits src)
    (satur = false ∨ (low ≤ z ∧ z ≤ high) → convert src dst v satur x = ((z % 2 ^ w).toNat, 0)) ∧
    (satur = true → z < low → convert src dst v satur x = ((low % 2 ^ w).toNat, 32)) ∧
    (satur = true → high < z → convert src dst v satur x = ((high % 2 ^ w).toNat, 32))) ∧
  (∀ (src dst : EType) (v : FpEnv) (satur : Bool) (x : Nat), isFloat src = true → isFloat dst = false →
    let w := etypeBits dst
    (∀ g, fread src v.daz x = .nan g → convert src dst v satur x = (0, 16)) ∧
    (fread src v.daz x = .inf true → convert src dst v satur x = (if isSigned dst then 2 ^ (w - 1) else 0, 16)) ∧
    (fread src v.daz x = .inf false → convert src dst v satur x = (if isSigned dst then 2 ^ (w - 1) - 1 else 2 ^ w - 1, 16))) ∧
  (∀ (dst : EType) (v : FpEnv) (satur : Bool) (x : Nat), dst ∈ [EType.bf16, .f16, .e4m3, .e5m2, .e2m1] →
    let r := convert .f32 dst v satur x
    (mcvtOf .f32 dst v satur x).2 = r.2 ∧
    (∀ g, fdecode dst r.1 = .nan g → (mcvtOf .f32 dst v satur x).1 = 0x7FC00000) ∧
    (∀ g, fdecode dst r.1 = .inf g → (mcvtOf .f32 dst v satur x).1 = if g then 0xFF800000 else 0x7F800000) ∧
    (∀ g m e, fdecode dst r.1 = .fin g m e → ∃ m2 e2, fdecode .f32 (mcvtOf .f32 dst v satur x).1 = .fin g m2 e2 ∧
      (m2 : ℝ) * 2 ^ e2 = (m : ℝ) * 2 ^ e)) ∧
  (∀ (v : FpEnv) (satur : Bool) (x : Nat), mcvtOf .i32 .f32 v satur x = convert .i32 .f32 v false x ∧
    mcvtOf .f32 .i32 v satur x = convert .f32 .i32 v false x))

/-- VCMP and the mask E-words write the active bits of kd and clear its tail; KPOPC and KFIRST write xd (R194, R196,
R187, R49). -/
def Obligations.MaskWords : Prop :=
  ∀ (s : State) (p : Shape) (w : EWord) (b : Block), Clean s →
    let t0 := etypeOf w.ty
    let k := etypeBits t0
    let ka := fun e => bit (s.hart.ctx.kreg w.va.toNat) e
    let kb := fun e => bit (s.hart.ctx.kreg w.vb.toNat) e
    let set := (actList s b w).filter fun e => ka e
    let first := set.headD b.vl
    let cond := fun e =>
      let x := opA s w k e
      let y := opB s b w k e
      if isFloat t0 then
        let daz := s.hart.ctx.fcsr.getLsbD 9
        fcompare w.fn.toNat (fread t0 daz x) (fread t0 daz y)
      else
        let i := intOf t0 x
        let j := intOf t0 y
        (match w.fn.toNat with
          | 0 => decide (i = j) | 1 => decide (i ≠ j) | 2 => decide (i < j) | 3 => decide (i ≤ j) | 4 => decide (j < i) | _ => decide (j ≤ i), 0)
    (∀ r : Instr × (Nat → Bool × Nat), r ∈ [(Instr.vcmp w, cond), (.kand w, fun e => (ka e && kb e, 0)), (.kor w, fun e => (ka e || kb e, 0)),
        (.kxor w, fun e => (ka e != kb e, 0)), (.knot w, fun e => (!ka e, 0)), (.ksbf w, fun e => (decide (e < first), 0)),
        (.ksif w, fun e => (decide (e ≤ first), 0)), (.ksof w, fun e => (decide (e = first), 0))] →
      AtWord r.1 p w b s →
      (0 < b.vl → ∃ t, exec r.1 s = .next t ∧ WordDone s t b true (orAll ((actList s b w).map fun e => (r.2 e).2)) ∧ KeepsRest s t ∧
        WroteK s t w.vd.toNat b.vl (acts s b w) (fun e => (r.2 e).1)) ∧
      (b.vl = 0 → ∃ t, exec r.1 s = .next t ∧ WordDone s t b true 0 ∧ KeepsRest s t ∧ KeepsRegs s t)) ∧
    (∀ r ∈ [(Instr.kpopc w, word set.length), (.kfirst w, match set.head? with | some f => word f | none => BitVec.allOnes 64)],
      AtWord r.1 p w b s →
      ∃ t, exec r.1 s = .next t ∧ WordDone s t b true 0 ∧ KeepsRest s t ∧ WroteS s t w.vd.toNat r.2)

/-- Merges, slides, permutes and moves write the elements of vd their rows name, bits unchanged; VMOVX writes xd (R197,
R198, R199, R200, R187). That VMOVX carries the mark of its element to xd is the model's reading (log entry 12). -/
def Obligations.MoveWords : Prop :=
  (∀ (s : State) (p : Shape) (w : EWord) (b : Block), Clean s → b.bad = [] →
    let t0 := etypeOf w.ty
    let k := etypeBits t0
    let a := opA s w k
    let kc := fun e => bit (s.hart.ctx.kreg w.vc.toNat) e
    let snap := (b.snap.getD (w.vb.toNat % 16) 0).toNat
    let n := if w.xs then snap else w.fn.toNat
    let on := acts s b w
    let idx := elem (s.hart.ctx.vreg w.vb) k
    let chosen := (List.range b.vl).filter kc
    let merge := fun e => if kc e then a e else opB s b w k e
    (∀ r : Instr × (Nat → Bool) × (Nat → Nat), r ∈ [(Instr.vmerge w, fun e => decide (e < b.vl), merge),
        (.vslideup w, fun e => on e && decide (n ≤ e), fun e => a (e - n)),
        (.vslidedn w, on, fun e => if e + n < b.vl then a (e + n) else 0),
        (.vperm w, on, fun e => if idx e < b.vl then a (idx e) else 0),
        (.vcompress w, fun e => decide (e < chosen.length), fun e => a (chosen.getD e 0)),
        (.vexpand w, fun e => decide (e < b.vl) && kc e, fun e => a ((List.range e).countP kc)),
        (.viota w, on, fun e => (List.range e).countP fun j => on j && bit (s.hart.ctx.kreg w.va.toNat) j),
        (.vid w, on, fun e => e), (.vbcast w, on, fun _ => if w.xs then snap else a 0),
        (.vins w, fun e => on e && decide (e = 0), fun _ => snap)] →
      AtWord r.1 p w b s →
      ∃ t, exec r.1 s = .next t ∧ WordDone s t b true 0 ∧ KeepsRest s t ∧ WroteV s t w.vd k r.2.1 r.2.2) ∧
    (AtWord (.vmergeF w) p w b s →
      (∀ e < b.vl, ¬ (kc e = true ∧ bit s.hart.ctx.fmask e = true)) →
      ∃ t, exec (.vmergeF w) s = .next t ∧ WordDone s t b true 0 ∧ t.hart.pend = s.hart.pend ∧
        t.hart.ctx.fmask = (if b.vl = 0 then s.hart.ctx.fmask else 0) ∧ t.hart.ctx.racc = s.hart.ctx.racc ∧
        t.hart.ctx.rstat = s.hart.ctx.rstat ∧ t.hart.ctx.m = s.hart.ctx.m ∧ t.hart.ctx.poison = s.hart.ctx.poison ∧
        WroteV s t w.vd k (fun e => decide (e < b.vl)) merge) ∧
    (AtWord (.vmergeF w) p w b s → NoStrip s → MayTrap s →
      ∀ e < b.vl, kc e = true → bit s.hart.ctx.fmask e = true → (∀ j < e, ¬ (kc j = true ∧ bit s.hart.ctx.fmask j = true)) →
      ∃ t, exec (.vmergeF w) s = .next t ∧ EWordTaken s t b .deferred (word e) 0 (b.words.getD b.idx 0) ∧ SameBytes s t) ∧
    (AtWord (.vmovx w) p w b s →
      let j := if w.xs then snap else 0
      ∃ t, exec (.vmovx w) s = .next t ∧ WordDone s t b true 0 ∧ KeepsRest s t ∧
        WroteS s t w.vd.toNat (if b.vl ≤ j then 0 else BitVec.ofInt 64 (intOf t0 (a j))))) ∧
  ∀ (s : State) (p : Shape) (w : EWord) (b : Block), AtWord (.vmovx w) p w b s →
    let k := etypeBits (etypeOf w.ty)
    let j := if w.xs then (b.snap.getD (w.vb.toNat % 16) 0).toNat else 0
    let d : Reg := Fin.ofNat 32 w.vd.toNat
    j < b.vl → ∃ t, exec (.vmovx w) s = .next t ∧ WordDone s t b true 0 ∧ t.hart.pend = s.hart.pend ∧
      WroteS s t w.vd.toNat (BitVec.ofInt 64 (intOf (etypeOf w.ty) (opA s w k j))) ∧ t.hart.ctx.fmask = s.hart.ctx.fmask ∧
      t.hart.ctx.racc = s.hart.ctx.racc ∧ t.hart.ctx.rstat = s.hart.ctx.rstat ∧ t.hart.ctx.m = s.hart.ctx.m ∧
      (d ≠ 0 → (XPoisoned t d ↔ { kind := 0, num := w.va.toNat, word := k * j / 64 } ∈ s.hart.ctx.poison)) ∧
      ∀ q, q ≠ xWord d → (q ∈ t.hart.ctx.poison ↔ q ∈ s.hart.ctx.poison)

/-- An integer reduction puts the sum, maximum or minimum of the chosen elements into vd[0], a scan the running value;
CONT goes on from RACC (R79, R202, R203, R61). That a scan without an active element raises no REDUCE_STATE is the
model's choice (log entry 78). -/
def Obligations.Reductions : Prop :=
  ∀ (s : State) (p : Shape) (w : EWord) (b : Block), Clean s → 0 < s.lanes →
    let t0 := etypeOf w.ty
    let k := etypeBits t0
    let fn := w.fn.toNat
    let int := fun e => intOf t0 (opA s w k e)
    let lo : Int := if isSigned t0 then -(2 ^ (k - 1)) else 0
    let hi : Int := if isSigned t0 then 2 ^ (k - 1) - 1 else 2 ^ k - 1
    let els := (List.range b.vl).filter fun e => !bit fn 2 || bit (s.hart.ctx.kreg w.vc.toNat) e
    let pat := fun z : Int => (z % 2 ^ k).toNat
    let old := s.hart.ctx.rstat.toNat
    let goes := bit fn 1 && bit old 63
    let acc := fun (t : State) (j : Nat) => (t.hart.ctx.racc.toList.getD j 0).toNat
    let rests := fun t : State => t.hart.pend = s.hart.pend ∧ t.hart.ctx.fmask = s.hart.ctx.fmask ∧ Clean t ∧
      t.hart.ctx.m = s.hart.ctx.m ∧ t.hart.ctx.x = s.hart.ctx.x ∧ t.hart.ctx.k = s.hart.ctx.k ∧ KeepsTiles s t ∧
      ∀ v : BitVec 6, v ≠ w.vd → t.hart.ctx.vreg v = s.hart.ctx.vreg v
    ∀ r : Instr × Nat × Int × (Int → Int → Int),
      r ∈ [(Instr.vredsum w, 0, 0, fun x y => x + y), (.vredmax w, 1, lo, max), (.vredmin w, 2, hi, min),
           (.vscanAdd w, 3, 0, fun x y => x + y), (.vscanMax w, 4, lo, max)] →
      AtWord r.1 p w b s →
      let fits := goes = false ∨ (bits old 55 52 = w.ty.toNat ∧ bits old 51 48 = r.2.1)
      let base := fun j => if goes then intOf t0 (acc s j) else r.2.2.1
      let folded := fun (z : Int) (es : List Nat) => (es.map int).foldl r.2.2.2 z
      (0 < b.vl → fits → ∃ t f, exec r.1 s = .next t ∧ WordDone s t b true f ∧ rests t ∧
        (let new := t.hart.ctx.rstat.toNat
         bit new 63 = bit fn 0 ∧ bits new 55 52 = w.ty.toNat ∧ bits new 51 48 = r.2.1 ∧ bits new 62 56 = 0 ∧ bits new 47 16 = 0 ∧
          bits new 15 0 = ((if goes then bits old 15 0 else 0) + 1) % 2 ^ 16) ∧
        (isFloat t0 = false → (goes = true → ∀ j < s.lanes, acc s j < 2 ^ k) → f = 0 ∧
          (r.2.1 < 3 → WroteV s t w.vd k (fun e => decide (e = 0)) (fun _ =>
              pat (folded (if goes then ((List.range s.lanes).map fun j => intOf t0 (acc s j)).foldl r.2.2.2 r.2.2.1 else r.2.2.1) els)) ∧
            ∀ j < s.lanes, acc t j = pat (folded (base j) (els.filter fun e => e / (256 / k) % s.lanes = j))) ∧
          (3 ≤ r.2.1 → WroteV s t w.vd k (acts s b w) (fun e => pat (folded (base 0) ((actList s b w).filter fun j => decide (j ≤ e)))) ∧
            acc t 0 = pat (folded (base 0) (actList s b w)) ∧ ∀ j < s.lanes, 0 < j → acc t j = pat r.2.2.1))) ∧
      (0 < b.vl → ¬ fits → r.2.1 < 3 ∨ actList s b w ≠ [] → NoStrip s → MayTrap s →
        ∃ t, exec r.1 s = .next t ∧ EWordTaken s t b .reduceState s.hart.ctx.rstat 0 (b.words.getD b.idx 0) ∧ SameBytes s t) ∧
      (0 < b.vl → ¬ fits → 3 ≤ r.2.1 → actList s b w = [] →
        ∃ t, exec r.1 s = .next t ∧ WordDone s t b true 0 ∧ KeepsRest s t ∧ KeepsRegs s t) ∧
      (b.vl = 0 → ∃ t, exec r.1 s = .next t ∧ WordDone s t b true 0 ∧ rests t ∧
        t.hart.ctx.rstat = s.hart.ctx.rstat ∧ t.hart.ctx.racc = s.hart.ctx.racc ∧
        (3 ≤ r.2.1 → KeepsRegs s t) ∧
        (r.2.1 < 3 → WroteV s t w.vd k (fun e => decide (e = 0)) (fun _ =>
          if isFloat t0 then (match r.2.1 with | 0 => withSign t0 true 0 | 1 => withSign t0 true (infMag t0) | _ => infMag t0)
          else pat (match r.2.1 with | 0 => 0 | 1 => lo | _ => hi))))

/-- A local vector load writes the active elements from VSTART on with the values at their addresses, pending stores
included (R212, R215, R216, R217, R218, R226, R109). -/
def Obligations.VectorLoads : Prop :=
  ∀ (s : State) (p : Shape) (w : EWord) (b : Block) (pl : Nat → Spot), Clean s →
    let fn := w.fn.toNat
    let k := etypeBits (etypeOf w.ty)
    let n := max 1 (k / 8)
    let base := b.snap.getD (bits fn 12 9) 0
    let off := base + BitVec.ofInt 64 ((BitVec.ofNat 6 (bits fn 5 0)).toInt * 8)
    let stride := b.snap.getD (w.vb.toNat % 16) 0
    let index := fun e => word (elem (s.hart.ctx.vreg w.vb) (if bit fn 6 then 64 else 32) e)
    let on := fun e => acts s b w e && decide (s.hart.ctx.vstart ≤ e)
    let read := fun e (o : Spot) =>
      let x := ofBytes (o.locs.map s.seen)
      if k = 4 then (if e % 2 = 0 then x % 16 else x / 16) else x
    let reached := fun (addr : Nat → Word) (e : Nat) => s.locate s.view (addr e).toNat n 1 false = .ok (pl e) ∧ (pl e).tiers = [] ∧
      NoLoops s (pl e).locs ∧ ∀ l ∈ (pl e).locs, s.seenBad l = false
    let unit : Nat → Word := fun e => off + word (e * k / 8)
    (∀ r : Instr × Prop × (Nat → Word), r ∈ [(Instr.vld w, True, unit), (.vldff w, True, unit),
        (.vlds w, bit fn 8 = false, fun e => off + word e * stride),
        (.vldx w, bit fn 8 = false, fun e => off + index e * word (k / 8)),
        (.vldg w, s.hart.run = .running ∧ ∃ g gk st, s.tagOf b w = .ok (g, gk, st) ∧
            ∀ e, on e = true → g.loadTest gk s.cid s.fabric.eid (selAddr b w e) st ∈ [Tagged.plain, .current],
          fun e => word (selAddr b w e))] →
      r.2.1 → AtWord r.1 p w b s → (∀ e, on e = true → reached r.2.2 e) →
      ∃ t, exec r.1 s = .next t ∧ WordDone s t b true 0 ∧ KeepsRest s t ∧ WroteV s t w.vd k on (fun e => read e (pl e))) ∧
    (∀ i f, AtWord (.vldff w) p w b s → 0 < i → on i = true → (∀ e < i, on e = true → reached unit e) →
      s.locate s.view (unit i).toNat n 1 false = .error f →
      ∃ t, exec (.vldff w) s = .next t ∧ OnlyHart s t ∧ t.hart.ctx.vl = i ∧ t.hart.ctx.vstart = 0 ∧
        t.hart.blocks = { b with idx := b.idx + 1, vl := i } :: s.hart.blocks.tail ∧ KeepsRest s t ∧
        WroteV s t w.vd k (fun e => on e && decide (e < i)) (fun e => read e (pl e))) ∧
    (∀ fails : Nat → Bool, AtWord (.vld w) p w b s → bit fn 7 = true → statusBit s.hart.sstatus 59 = false →
      (∀ e, on e = true → fails e = false → reached unit e) →
      (∀ e, on e = true → fails e = true → ∃ f, s.locate s.view (unit e).toNat n 1 false = .error f ∧ f.sub ≠ 65535) →
      ∃ t, exec (.vld w) s = .next t ∧ WordDone s t b true 0 ∧ t.hart.pend = s.hart.pend ∧
        t.hart.ctx.racc = s.hart.ctx.racc ∧ t.hart.ctx.rstat = s.hart.ctx.rstat ∧ t.hart.ctx.m = s.hart.ctx.m ∧
        t.hart.ctx.poison = s.hart.ctx.poison ∧ WroteV s t w.vd k on (fun e => if fails e then 0 else read e (pl e)) ∧
        ∀ e, bit t.hart.ctx.fmask e = (bit s.hart.ctx.fmask e || (on e && fails e)))

/-- Faults of vector memory and matrix words: a load that faults, GRID_HANDLE, STEP_WINDOW, STALE_HALO, VLDFF at element
0, MAT_SOURCE, SPARSE_META, MAT_RING (R40, R213, R214, R217, R226, R227, R237, R238, R241, R298, R299, R356). Model
choices: MAT_RING with no active column too (log entry 90), and the column that a fault of OPA.SP reports (log entry
106). -/
def Obligations.VectorFault : Prop :=
  (∀ (s : State) (p : Shape) (w : EWord) (b : Block) (pl : Nat → Spot) (i : Nat) (f : Trap), Clean s → MayTrap s →
    AtWord (.vld w) p w b s → bit w.fn.toNat 7 = false → f.sub < 65535 →
    let k := etypeBits (etypeOf w.ty)
    let on := fun e => acts s b w e && decide (s.hart.ctx.vstart ≤ e)
    (∀ e < i, on e = true → s.locate s.view (unitAddr b w e) (elemBytes w) 1 false = .ok (pl e) ∧ (pl e).tiers = [] ∧
      NoLoops s (pl e).locs ∧ ∀ l ∈ (pl e).locs, s.seenBad l = false) →
    on i = true → s.locate s.view (unitAddr b w i) (elemBytes w) 1 false = .error f →
    (∀ c, s.hart.ctx.strip = some c → ∃ t, exec (.vld w) s = .next t ∧ OnlyTrap s t ∧
      t.hart.sepc = c.pc ∧ t.hart.scause = word (2 ^ 62 + 2 ^ 61 + b.idx % 64 * 2 ^ 54 + f.sub * 2 ^ 16 + causeCode f.cause) ∧
      t.hart.stval = word (unitAddr b w i) ∧ t.hart.stval2 = word i ∧ t.hart.sblka = b.addr ∧
      t.hart.pend = [] ∧ t.hart.blocks = [] ∧ t.hart.ctx.x = c.x ∧ t.hart.ctx.k = c.k ∧ t.hart.ctx.vl = c.vl ∧ t.hart.ctx.tl = c.tl ∧
      t.hart.ctx.lps = c.lps ∧ t.hart.ctx.fmask = c.fmask ∧ t.hart.ctx.vstart = c.vstart ∧ t.hart.ctx.v = s.hart.ctx.v) ∧
    (NoStrip s → ∃ t, exec (.vld w) s = .next t ∧ (OnlyTrap s t ∨ OnlyHart s t) ∧
      WroteV s t w.vd k (fun e => on e && decide (e < i)) (fun e =>
        let x := ofBytes ((pl e).locs.map s.seen)
        if k = 4 then (if e % 2 = 0 then x % 16 else x / 16) else x) ∧
      let trapped := t.hart.suspended = s.hart.suspended ++ { b with vstart := i } :: s.hart.blocks.tail ∧ t.hart.blocks = [] ∧
        t.hart.sepc = s.hart.ctx.pc ∧ t.hart.scause = word (2 ^ 61 + b.idx % 64 * 2 ^ 54 + f.sub * 2 ^ 16 + causeCode f.cause) ∧
        t.hart.stval = word (unitAddr b w i) ∧ t.hart.stval2 = word i ∧ t.hart.sblka = b.addr
      ((∀ e < i, on e = false) → trapped) ∧
      (trapped ∨ (t.hart.unchecked ≠ [] ∧ t.hart.ctx.vstart = i ∧ t.hart.ctx.pc = s.hart.ctx.pc ∧ t.hart.blocks =
        { b with raise := some { f with val := word (unitAddr b w i), val2 := word i } } :: s.hart.blocks.tail)))) ∧
  (∀ (s : State) (p : Shape) (w : EWord) (b : Block), Clean s → MayTrap s →
    let fn := w.fn.toNat
    let els := (actList s b w).filter fun e => decide (s.hart.ctx.vstart ≤ e)
    let snap := b.snap.getD (w.vb.toNat % 16) 0
    let tag := snap.toNat
    let traps := fun (x : Instr) (f : Trap) (i : Nat) (noStrip : Prop) =>
      let code := 2 ^ 61 + b.idx % 64 * 2 ^ 54 + f.sub * 2 ^ 16 + causeCode f.cause
      let named := fun t : State => OnlyTrap s t ∧ t.hart.stval = f.val ∧ t.hart.stval2 = f.val2 ∧ t.hart.sblka = b.addr ∧
        t.hart.sword = b.words.getD b.idx 0 ∧ t.hart.blocks = [] ∧ t.hart.pend = [] ∧ t.hart.ctx.v = s.hart.ctx.v ∧ KeepsTiles s t
      (∀ c, s.hart.ctx.strip = some c → ∃ t, exec x s = .next t ∧ named t ∧ t.hart.sepc = c.pc ∧ t.hart.scause = word (2 ^ 62 + code) ∧
        t.hart.ctx.x = c.x ∧ t.hart.ctx.k = c.k ∧ t.hart.ctx.vl = c.vl ∧ t.hart.ctx.vstart = c.vstart) ∧
      (NoStrip s → noStrip → ∃ t, exec x s = .next t ∧ named t ∧ t.hart.sepc = s.hart.ctx.pc ∧ t.hart.scause = word code ∧
        t.hart.suspended = s.hart.suspended ++ { b with vstart := i } :: s.hart.blocks.tail ∧
        t.hart.ctx.x = s.hart.ctx.x ∧ t.hart.ctx.k = s.hart.ctx.k ∧ t.hart.ctx.vl = s.hart.ctx.vl)
    let reached := fun (wr : Bool) (a : Nat) => ∃ q, s.locate s.view a (elemBytes w) 1 wr = .ok q ∧ q.tiers = [] ∧
      (wr = false → NoLoops s q.locs ∧ ∀ l ∈ q.locs, s.seenBad l = false)
    (∀ x ∈ [Instr.vldg w, .vstg w], AtWord x p w b s → els ≠ [] →
      (∀ cid h gid n, Runner s cid h gid n → s.gridOf (s.partOf cid) gid (bits tag 47 32) = none →
        traps x { cause := .gridHandle, val := word (bits tag 47 0) } s.hart.ctx.vstart True)) ∧
    (∀ g gk st, s.tagOf b w = .ok (g, gk, st) →
      let test := fun e => g.loadTest gk s.cid s.fabric.eid (selAddr b w e) st
      let stored := fun e => g.storeTest gk s.cid s.fabric.eid (selAddr b w e) st
      st = bits tag 31 0 ∧ g.handle = bits tag 47 32 ∧
      (AtWord (.vldg w) p w b s → s.hart.run = .running →
        (∀ i ∈ els, (∀ e ∈ els, e < i → reached false (selAddr b w e) ∧ test e ≠ .window) → reached false (selAddr b w i) → test i = .window →
          traps (.vldg w) { cause := .stepWindow, val := word (bits tag 47 0), val2 := word (selAddr b w i) } i (els.head? = some i)) ∧
        ((∀ e ∈ els, reached false (selAddr b w e) ∧ test e ≠ .window) → ∀ i ∈ els, ∀ j, test i = .stale j →
          (∀ e ∈ els, e < i → ∀ k, test e ≠ .stale k) →
          (g.faultPolicy = true →
            traps (.vldg w) { cause := .staleHalo, val := word (bits tag 47 0), val2 := word (selAddr b w i) } s.hart.ctx.vstart True) ∧
          (g.faultPolicy = false → exec (.vldg w) s =
            .next { s with hart := { s.hart with run := .stall (g.wordToken s.fabric.eid j false st) } }))) ∧
      (AtWord (.vstg w) p w b s → ∀ i ∈ els, (∀ e ∈ els, e < i → reached true (selAddr b w e) ∧ stored e = true) →
        reached true (selAddr b w i) → stored i = false →
        traps (.vstg w) { cause := .stepWindow, val := word (bits tag 47 0), val2 := word (selAddr b w i) } i (els.head? = some i))) ∧
    (∀ f, AtWord (.vldff w) p w b s → s.hart.ctx.vstart = 0 → 0 ∈ els → f.sub < 65535 →
      s.locate s.view (unitAddr b w 0) (elemBytes w) 1 false = .error f →
      traps (.vldff w) { f with val := word (unitAddr b w 0), val2 := 0 } 0 True) ∧
    (s.hart.ctx.m = true → 0 < b.tl → actList s b w ≠ [] →
      let base := b.snap.getD (bits fn 12 9) 0
      let k := etypeBits (etypeOf w.ty)
      let n := max 1 (k / 8)
      let d := depthOf (etypeOf w.ty)
      let addr := fun i o => (base + word i * snap + word o).toNat
      let clean := fun (o : Spot) => NoLoops s o.locs ∧ ∀ l ∈ o.locs, s.seenBad l = false
      let paged := fun a : Nat => a < 2 ^ 56
      let pos := bits fn 8 3
      (∀ r ∈ [Instr.opa w, .ops w], AtWord r p w b s → ∀ i < b.tl, ∀ q < d,
        (∀ i2 q2, q2 < d → i2 < i ∨ (i2 = i ∧ q2 < q) → ∃ o, s.matSource (addr i2 ((pos * d + q2) * k / 8)) n i2 (pos * d + q2) = .ok o) →
        let a := addr i ((pos * d + q) * k / 8)
        paged a → paged (a + n) → traps r { cause := .matSource, val := word a } s.hart.ctx.vstart True) ∧
      (AtWord (.opaSp w) p w b s →
        let c := match bits fn 1 0 with | 0 => 12 | 1 => 16 | _ => 24
        let size := 8 + 8 * ((c * k / 8 + 7) / 8)
        let mword := fun (o : Nat → Spot) i => ofBytes ((o i).locs.map s.seen)
        (∀ a, a = addr 0 (pos * size) → paged a → paged (a + 8) → traps (.opaSp w) { cause := .matSource, val := word a } s.hart.ctx.vstart True) ∧
        ∀ (o : Nat → Spot), (∀ i < b.tl, s.matSource (addr i (pos * size)) 8 i 0 = .ok (o i) ∧ clean (o i) ∧
            ∀ r < c, ∃ v, s.matSource (addr i (pos * size + (8 + r * k / 8))) n i r = .ok v ∧ clean v) →
          ∀ i < b.tl, (List.range 48).countP (fun q => bit (mword o i) q) ≠ c ∨ 2 ^ 48 ≤ mword o i →
            (∀ j < i, (List.range 48).countP (fun q => bit (mword o j) q) = c ∧ mword o j < 2 ^ 48) →
            traps (.opaSp w) { cause := .sparseMeta, val := word i, val2 := word pos } s.hart.ctx.vstart True)) ∧
    (s.hart.ctx.m = true → AtWord (.mrot w) p w b s → s.ringOk = false → traps (.mrot w) { cause := .matRing } s.hart.ctx.vstart True))

/-- A local vector store adds one pending element for each active element from VSTART on; memory and registers stay
(R212, R213, R219, R227). -/
def Obligations.VectorStores : Prop :=
  ∀ (s : State) (p : Shape) (w : EWord) (b : Block) (pl : Nat → Spot), Clean s →
    let fn := w.fn.toNat
    let k := etypeBits (etypeOf w.ty)
    let n := max 1 (k / 8)
    let off := b.snap.getD (bits fn 12 9) 0 + BitVec.ofInt 64 ((BitVec.ofNat 6 (bits fn 5 0)).toInt * 8)
    let stride := b.snap.getD (w.vb.toNat % 16) 0
    let index := fun e => word (elem (s.hart.ctx.vreg w.vb) (if bit fn 6 then 64 else 32) e)
    let els := (actList s b w).filter fun e => decide (s.hart.ctx.vstart ≤ e)
    let data := fun e =>
      let x := opA s w k e
      if k = 4 then (pl e).locs.map (fun l => if e % 2 = 0 then (l, x, 15) else (l, x * 16, 240))
      else (pl e).locs.zip ((bytesOf n x).map fun y => (y.toNat, 255))
    ∀ r : Instr × Prop × (Nat → Word), r ∈ [(Instr.vst w, True, fun e => off + word (e * k / 8)),
        (.vsts w, bit fn 8 = false, fun e => off + word e * stride),
        (.vstx w, bit fn 8 = false, fun e => off + index e * word (k / 8)),
        (.vstg w, ∃ g gk st, s.tagOf b w = .ok (g, gk, st) ∧
            ∀ e ∈ els, g.storeTest gk s.cid s.fabric.eid (selAddr b w e) st = true, fun e => word (selAddr b w e))] →
      r.2.1 → AtWord r.1 p w b s →
      (∀ e ∈ els, s.locate s.view (r.2.2 e).toNat n 1 true = .ok (pl e) ∧ (pl e).tiers = []) →
      ∃ t, exec r.1 s = .next t ∧ WordDone s t b true 0 ∧ KeepsCtx s t ∧ KeepsRegs s t ∧
        t.hart.pend = s.hart.pend ++ endWords (els.map fun e => ({
          idx := e, addr := r.2.2 e, bytes := data e, lines := (pl e).lines, remote := none, poisoned := false, whole := [], tiers := [] } : Pend))

/-- A remote vector load sends one request and waits for its answer; a remote vector store adds pending elements of one
request (R223, R224, R225, R376). Model choices: a hart waits in place for an answer (log entry 8), and pending stores
that cover a remote load give it all its bytes (log entry 88). -/
def Obligations.RemoteVectors : Prop :=
  ∀ (s : State) (p : Shape) (w : EWord) (b : Block), Clean s → bit w.fn.toNat 8 = true →
    let els := (actList s b w).filter fun e => decide (s.hart.ctx.vstart ≤ e)
    let ep := (b.snap.getD (bits w.fn.toNat 3 0) 0).toNat % 8192
    els ≠ [] →
    (∀ r ∈ [(Instr.vlds w, 1), (.vldx w, 2)], AtWord r.1 p w b s →
      let v := s.request b w r.2
      let u := 1 + (vecPayload v + 63) / 64
      v.vl ≤ 256 → u ≤ 5 → (∃ a ∈ vecBytes v, s.ownByte ep a none = none) → s.combFor ep = false →
      s.storeInFlight ep (vecBytes v) = false → s.storeQueued ep = false → HasUnits s ep u →
      ∃ t, exec r.1 s = .next t ∧ Asked s t ep (.vec v) (.vload s.focus) ∧ t.hart = { s.hart with run := .remote s.fabric.nextRid } ∧
        t.fabric.unitsFor ep = s.fabric.unitsFor ep - u ∧ SameBytes s t) ∧
    (∀ r ∈ [(Instr.vsts w, 3), (.vstx w, 4)], AtWord r.1 p w b s →
      let v := s.request b w r.2
      let u := 1 + (vecPayload v + 63) / 64
      (v.vl ≤ 256 → u ≤ 5 → ∃ t ps, exec r.1 s = .next t ∧ WordDone s t b true 0 ∧ KeepsCtx s t ∧ KeepsRegs s t ∧
        t.hart.pend = s.hart.pend ++ ps ∧ ps.map (·.idx) = els ∧ ∀ q ∈ ps, q.remote = some (ep, v) ∧ q.bytes = []) ∧
      (256 < v.vl ∨ 5 < u → NoStrip s → MayTrap s → ∃ t, exec r.1 s = .next t ∧
        EWordTaken s t b .remoteLength (word v.vl) (word u) (b.words.getD b.idx 0) ∧ SameBytes s t))

/-- MZERO, MLD, MMOV.V, VMOV.M, MCVT, MLATCH and MST move tile, latch and vector elements of the window, and nothing
else (R230, R231, R236, R239, R240, R242, R243). Model choices: MLATCH ignores TL (log entry 16), and MATOFF is raised
with no active column too, and before MAT_RING (log entry 90). -/
def Obligations.TileWords : Prop :=
  ∀ (s : State) (p : Shape) (w : EWord) (b : Block) (pl : Nat → Nat → Spot), Clean s →
    let c := s.hart.ctx
    let t0 := etypeOf w.ty
    let wide := if t0 = .f64 then 32 else 64
    let bw := if t0 = .f64 then 64 else 32
    let fn := w.fn.toNat
    let win := fun e (cols : Nat) => decide (e / cols < b.tl) && acts s b w (e % cols)
    let base := b.snap.getD (bits fn 12 9) 0
    let stride := b.snap.getD (w.vb.toNat % 16) 0
    let addr := fun i o => (base + word i * stride + word o).toNat
    let clean := fun (o : Spot) => o.tiers = [] ∧ NoLoops s o.locs ∧ ∀ l ∈ o.locs, s.seenBad l = false
    let slice := if w.xs then (b.snap.getD (w.vb.toNat % 16) 0).toNat else bits fn 5 0
    let inside := decide (slice < if bit fn 6 then wide else s.rows)
    let pos := fun e => if bit fn 6 then e * wide + slice else slice * wide + e
    (c.m = false → NoStrip s → MayTrap s →
      ∀ i ∈ [Instr.mzero w, .mld w, .mmovV w, .vmovM w, .mcvt w, .mlatch w, .mst w, .opa w, .ops w, .opaSp w, .mrot w], AtWord i p w b s →
      ∃ t, exec i s = .next t ∧ EWordTaken s t b .matoff 0 0 (b.words.getD b.idx 0) ∧ SameBytes s t) ∧
    (c.m = true →
      (AtWord (.mzero w) p w b s → ∃ t, exec (.mzero w) s = .next t ∧ WordDone s t b false 0 ∧ KeepsRest s t ∧
        WroteT s t w.vd 32 (fun e => win e 64) (fun _ => 0)) ∧
      (AtWord (.mld w) p w b s → (∀ i < b.tl, ∀ j, acts s b w j = true →
          s.locate s.view (addr i (j * (bw / 8))) (bw / 8) 1 false = .ok (pl i j) ∧ clean (pl i j)) →
        ∃ t, exec (.mld w) s = .next t ∧ WordDone s t b false 0 ∧ KeepsRest s t ∧
          WroteT s t w.vd bw (fun e => win e wide) (fun e => ofBytes ((pl (e / wide) (e % wide)).locs.map s.seen))) ∧
      (AtWord (.mcvt w) p w b s →
        let src := etypeOf (BitVec.ofNat 4 fn)
        let val := fun e => mcvtOf src t0 (if srEligible src t0 then s.eEnvSr b w e else s.eEnv b w) (bit fn 4) (elem (c.treg w.va.toNat) 32 e)
        let els := (List.range b.tl).flatMap fun i => (actList s b w).map fun j => i * 64 + j
        ∃ t, exec (.mcvt w) s = .next t ∧ WordDone s t b false (orAll (els.map fun e => (val e).2)) ∧ KeepsRest s t ∧
          WroteT s t w.vd 32 (fun e => win e 64) (fun e => (val e).1)) ∧
      (AtWord (.mmovV w) p w b s → ∃ t, exec (.mmovV w) s = .next t ∧ WordDone s t b false 0 ∧ KeepsRest s t ∧
        WroteV s t w.vd bw (acts s b w) (fun e => if inside then elem (c.treg w.va.toNat) bw (pos e) else 0)) ∧
      (AtWord (.vmovM w) p w b s → ∃ t, exec (.vmovM w) s = .next t ∧ WordDone s t b false 0 ∧ KeepsRest s t ∧
        WroteT s t w.vd bw (fun e => inside && (List.range b.vl).any fun j => acts s b w j && decide (pos j = e))
          (fun e => elem (c.vreg w.va) bw (if bit fn 6 then e / wide else e % wide))) ∧
      (AtWord (.mlatch w) p w b s →
        let k := etypeBits t0
        let deep := s.rows * depthOf t0
        (∀ q < deep, ∀ j, acts s b w j = true →
          s.locate s.view (addr q (j * k / 8)) (max 1 (k / 8)) 1 false = .ok (pl q j) ∧ clean (pl q j)) →
        ∃ t, exec (.mlatch w) s = .next t ∧ WordDone s t b false 0 ∧ KeepsRest s t ∧ t.hart.ctx.t = c.t ∧
          t.hart.ctx.x = c.x ∧ t.hart.ctx.v = c.v ∧ t.hart.ctx.k = c.k ∧
          ∀ e, elem t.hart.ctx.bl k e = if e / wide < deep ∧ acts s b w (e % wide) = true then
              let x := ofBytes ((pl (e / wide) (e % wide)).locs.map s.seen)
              if k = 4 then (if e % 2 = 0 then x % 16 else x / 16) else x % 2 ^ k
            else elem c.bl k e) ∧
      (AtWord (.mst w) p w b s → (∀ i < b.tl, ∀ j, acts s b w j = true →
          s.locate s.view (addr i (j * (bw / 8))) (bw / 8) 1 true = .ok (pl i j) ∧ (pl i j).tiers = []) →
        ∃ t, exec (.mst w) s = .next t ∧ WordDone s t b false 0 ∧ KeepsCtx s t ∧ KeepsRegs s t ∧
          t.hart.pend = s.hart.pend ++ endWords ((List.range b.tl).flatMap fun i => (actList s b w).map fun j => ({
            idx := j, addr := word (addr i (j * (bw / 8))), lines := (pl i j).lines, remote := none, poisoned := false, whole := [], tiers := []
            bytes := (pl i j).locs.zip ((bytesOf (bw / 8) (elem (c.treg w.va.toNat) bw (i * wide + j))).map fun y => (y.toNat, 255)) } : Pend))))

/-- OPA, OPS and OPA.SP add the products of A rows and latch rows into the window of the tile; MROT moves the latches of
a cluster (R78, R80, R234, R237, R238, R241). Model choice: the sign of an exactly zero sum of zeros of both signs (log
entry 89). -/
def Obligations.OuterProducts : Prop :=
  ∀ (s : State) (p : Shape) (w : EWord) (b : Block) (pl : Nat → Nat → Spot), Clean s → s.hart.ctx.m = true →
    let c := s.hart.ctx
    let t0 := etypeOf w.ty
    let k := etypeBits t0
    let wide := if t0 = .f64 then 32 else 64
    let bw := if t0 = .f64 then 64 else 32
    let fn := w.fn.toNat
    let win := fun e => decide (e / wide < b.tl) && acts s b w (e % wide)
    let els := (List.range b.tl).flatMap fun i => (actList s b w).map fun j => i * wide + j
    let addr := fun i o => (b.snap.getD (bits fn 12 9) 0 + word i * b.snap.getD (w.vb.toNat % 16) 0 + word o).toNat
    let clean := fun (o : Spot) => NoLoops s o.locs ∧ ∀ l ∈ o.locs, s.seenBad l = false
    let half := fun r x => if k = 4 then (if r % 2 = 0 then x % 16 else x / 16) else x
    let got := fun i q => ofBytes ((pl i q).locs.map s.seen)
    let d := depthOf t0
    let pos := bits fn 8 3
    (∀ r ∈ [(Instr.opa w, false), (.ops w, true)], AtWord r.1 p w b s →
      (∀ i < b.tl, ∀ q < d, s.matSource (addr i ((pos * d + q) * k / 8)) (max 1 (k / 8)) i (pos * d + q) = .ok (pl i q) ∧ clean (pl i q)) →
      let val := fun e => opaElem t0 (s.eEnv b w) (bit fn 2) (bit fn 2) r.2 (elem (c.treg w.vd.toNat) bw e)
        ((List.range d).map fun q => ((half (pos * d + q) (got (e / wide) q), elem (c.vreg w.va) 8 (e / wide)),
          (elem c.bl k ((pos * d + q) * wide + e % wide), elem (c.vreg w.vc) 8 (e % wide))))
      ∃ t, exec r.1 s = .next t ∧ WordDone s t b false (orAll (els.map fun e => (val e).2)) ∧ KeepsRest s t ∧
        WroteT s t w.vd bw win (fun e => (val e).1)) ∧
    (AtWord (.opaSp w) p w b s →
      let n := match bits fn 1 0 with | 0 => 12 | 1 => 16 | _ => 24
      let size := 8 + 8 * ((n * k / 8 + 7) / 8)
      let mask := fun i => got i 0
      let at48 := fun i r => ((List.range 48).filter fun q => bit (mask i) q).getD r 0
      let late := fun q => if (48 * pos + q) / 32 = 48 * pos / 32 then 0 else 1
      (∀ i < b.tl, s.matSource (addr i (pos * size)) 8 i 0 = .ok (pl i 0) ∧ clean (pl i 0) ∧
        (List.range 48).countP (fun q => bit (mask i) q) = n ∧ mask i < 2 ^ 48 ∧
        ∀ r < n, s.matSource (addr i (pos * size + (8 + r * k / 8))) (max 1 (k / 8)) i r = .ok (pl i (r + 1)) ∧ clean (pl i (r + 1))) →
      let val := fun e => opaElem t0 (s.eEnv b w) (bit fn 2) (bit fn 2) false (elem (c.treg w.vd.toNat) 32 e)
        ((List.range n).map fun r =>
          let q := at48 (e / 64) r
          ((half r (got (e / 64) (r + 1)), elem (c.vreg w.va) 8 (2 * (e / 64) + late q)),
           (elem c.bl k ((48 * pos + q) * wide + e % 64), elem (c.vreg w.vc) 8 (2 * (e % 64) + late q))))
      t0 ≠ .f64 →
      ∃ t, exec (.opaSp w) s = .next t ∧ WordDone s t b false (orAll (els.map fun e => (val e).2)) ∧ KeepsRest s t ∧
        WroteT s t w.vd 32 win (fun e => (val e).1)) ∧
    (∀ cid, AtWord (.mrot w) p w b s → s.focus = .hart cid 0 → s.ringOk = true →
      let peer := fun n => Agent.hart (cid / 8 * 8 + n) 0
      ((∃ n < 8, n ≠ cid % 8 ∧ (s.hartOf (peer n)).run ≠ .ring) → exec (.mrot w) s = .next { s with hart := { s.hart with run := .ring } }) ∧
      ((∀ n < 8, n ≠ cid % 8 → (s.hartOf (peer n)).run = .ring) → ∃ t, exec (.mrot w) s = .next t ∧ SameBytes s t ∧
        ∀ n < 8, (t.hartOf (peer n)).ctx.bl = (s.hartOf (peer ((n + 7) % 8))).ctx.bl ∧ (t.hartOf (peer n)).run = .running ∧
          (t.hartOf (peer n)).ctx.v = (s.hartOf (peer n)).ctx.v ∧ (t.hartOf (peer n)).ctx.t = (s.hartOf (peer n)).ctx.t))

/-- Reset, firmware slots, log, sensors, limits, credits, pod key and endpoint ID change as their rows say (R388, R389,
R391, R393, R394, R395, R396, R397, R398). Model choices: what a reset leaves where the spec gives no value (log entries
1, 53), the limit after a cause ends (log entry 52), and credits and quadrant limits (log entry 83). -/
def Obligations.ModuleManagement : Prop :=
  ∀ s : State,
    let same := fun t : State => t.hart = s.hart ∧ t.harts = s.harts ∧ SameBytes s t
    (∀ i ∈ [Instr.powerOn, .resetModule], ∃ t, exec i s = .next t ∧ t.hart = State.reset.hart ∧ t.harts = State.reset.harts ∧
      t.focus = State.reset.focus ∧ t.gangs = [] ∧ t.copies = [] ∧ t.grids = [] ∧ t.host = s.host ∧ t.eft.pending = false ∧
      let act := if s.eft.pending then 1 - s.eft.active else s.eft.active
      let ok := fun n => slotValid (s.eft.slot n) s.eft.fused s.eft.minSvn
      let runs := fun n => t.eft.active = n ∧ t.eft.runningSvn = (s.eft.slot n).svn ∧ t.eft.booted = true ∧ t.eft.clocks = true
      (ok act = true → runs act) ∧
      (ok act = false → ok (1 - act) = true → runs (1 - act)) ∧
      (ok act = false → ok (1 - act) = false → t.eft.booted = false ∧ t.eft.clocks = false ∧ Alert.bootFail ∈ t.eft.alerts)) ∧
    (∃ t, exec .commitSvn s = .next t ∧ same t ∧
      t.eft.minSvn = if s.eft.booted then max s.eft.minSvn s.eft.runningSvn else s.eft.minSvn) ∧
    (∀ f, ∃ t, exec (.firmwareUpdateWrite f) s = .next t ∧ same t ∧ t.eft.active = s.eft.active ∧ t.eft.runningSvn = s.eft.runningSvn ∧
      t.eft.pending = slotValid f s.eft.fused s.eft.minSvn ∧
      (s.eft.active = 0 → t.eft.slotB = f ∧ t.eft.slotA = s.eft.slotA) ∧ (s.eft.active ≠ 0 → t.eft.slotA = f ∧ t.eft.slotB = s.eft.slotB)) ∧
    (∀ n, ∃ t, exec (.logRead n) s = .next t ∧ same t ∧ t.eft.alerts = s.eft.alerts ++ [.log ((s.eft.log.filter fun r => n ≤ r.seq).map LogRec.bytes)]) ∧
    (∀ n, ∃ t, exec (.sensorRead n) s = .next t ∧ same t ∧
      t.eft.alerts = s.eft.alerts ++ match s.eft.sensors.lookup n with | some v => [.sensor n v] | none => []) ∧
    (∀ n v, ∃ t, exec (.sensorSample n v) s = .next t ∧ (153 ≤ n ∨ s.eft.tripped = true → t = s) ∧ (n < 153 → s.eft.tripped = false →
      t.eft.sensors.lookup n = some v ∧
      (¬ (n < 136 ∧ 480 ≤ v) → (n = 150 → 10 ≤ v ∨ s.eft.flowLow = none) → same t) ∧
      (n < 136 → 480 ≤ v → t.eft.clocks = false ∧ t.eft.booted = false ∧ t.eft.tripped = true ∧ Alert.thermalTrip ∈ t.eft.alerts ∧
        t.hart = State.reset.hart ∧ t.harts = State.reset.harts ∧ t.gangs = [] ∧ t.mem = State.reset.mem ∧ t.host = s.host) ∧
      (n < 136 → 420 ≤ v → v < 480 → n ∈ t.eft.lowered ∧ t.eft.clocks = s.eft.clocks ∧ t.eft.steps (n / 34) = s.eft.steps (n / 34) + 1) ∧
      (n < 136 → v < 400 → n ∉ t.eft.lowered ∧
        ((∀ k ∈ s.eft.lowered, k = n ∨ k / 34 ≠ n / 34) → t.eft.steps (n / 34) = 0)) ∧
      (136 ≤ n → n < 148 → (n - 136 ∈ t.eft.throttled ↔ 380 ≤ v)) ∧
      (n = 148 → t.eft.moduleLimit = if 450 < v ∨ (∃ f, s.eft.sensors.lookup 150 = some f ∧ f < 40) then 1500 else 3000))) ∧
    (∀ k, ∃ t, exec (.podKeyProvision k) s = .next t ∧ same t ∧ (s.eft.booted = true → t.eft.podKey = some k)) ∧
    (∀ e, ∃ t, exec (.eidAssign e) s = .next t ∧ same t ∧
      (s.eft.booted = true → t.fabric.eid = match e with | some n => n % 8192 | none => 8192)) ∧
    (s.eft.booted = false → ∀ i ∈ [Instr.podKeyProvision 0, .eidAssign none],
      exec i s = .next { s with fabric := { s.fabric with out := s.fabric.out ++ [.managementNack] } }) ∧
    (∀ c b, c < Config.cores / 8 → ∀ r ∈ [(Instr.creditGrant c b, b), (.creditFloor c, Config.freeFloorCredits)],
      let others := fun f : Nat → Bool => ((s.eft.granted.filter fun k => k.1 != c && f k.1).map (·.2)).sum
      let credits := Config.freeModuleCredits - if s.eft.moduleLimit < 3000 then Config.freeLimitCut else 0
      let whole := min r.2 (credits - others fun _ => true)
      let x := if s.eft.steps (c / 34) = 0 then whole
        else min whole (quadrantCredits (s.eft.steps (c / 34)) - others fun k => k / 34 == c / 34)
      ∃ t, exec r.1 s = .next t ∧ same t ∧ t.eft.budgets.lookup c = some x ∧ t.eft.granted.lookup c = some x) ∧
    (∀ n, quadrantCredits n = 0 ∨ quadrantCredits (n + 1) < quadrantCredits n)

/-- The port rows move a port through its four states, the nine SPDM steps in order, keys, flits and retrains; the host
rows serve the host (R382, R383, R384, R385, R386, R387). Model choices: SPDM steps out of order (log entry 50), and a
port out of service (log entry 86). No frame of the control area shares its bytes with another. -/
def Obligations.PortWords : Prop :=
  (∀ (s : State) (i : Nat), i < 16 → MemoriesWf s → Apart s → s.eft.booted = true →
    let st := s.portState i
    let error := fun (t : State) (c : Nat) => t.portState i = 3 ∧ bits (t.dev8 (portWord i 1)) 61 56 = c
    let epoch := fun t : State => bits (t.dev8 (portWord i 1)) 31 0
    (∃ t, exec (.lockPort i) s = .next t ∧ t.hart = s.hart ∧ (st = 0 → s.portService i = true → t.portState i = 1 ∧ epoch t = 0 ∧
      (t.port i).spdm = 0 ∧ (t.port i).established = false) ∧ (st ≠ 0 ∨ s.portService i = false → t = s)) ∧
    (∃ t, exec (.startPort i) s = .next t ∧ t.hart = s.hart ∧
      let may := st = 1 ∧ (s.port i).established = true ∧ s.portService i = true
      (may → t.portState i = 2) ∧ (¬ may → t = s)) ∧
    (∃ t, exec (.stopPort i) s = .next t ∧ t.hart = s.hart ∧ t.portState i = 0 ∧ (t.port i).established = false ∧ (t.port i).spdm = 0) ∧
    (∀ peer, ∃ t, exec (.peerWrite i peer) s = .next t ∧ t.hart = s.hart ∧
      (st = 0 → bits (t.dev8 (portWord i 0)) 12 0 = peer % 8192) ∧
      (bits (s.dev8 (portWord i 0)) 12 0 ≠ peer % 8192 → st = 1 ∨ st = 2 → error t 2) ∧ (st = 3 → t = s)) ∧
    (∀ (ok : Bool) (algs : List SpdmAlgorithm) (e : EvidenceBlock),
      let agreed := decide (SpdmAlgorithm.ecdsaP384 ∈ algs ∧ SpdmAlgorithm.sha384 ∈ algs ∧ SpdmAlgorithm.secp384r1 ∈ algs ∧ SpdmAlgorithm.aes256gcm ∈ algs)
      let attested := e.sep == bits (s.dev8 (portWord i 0)) 12 0 && Config.ecdsaVerifies e.ecdsaKey e.bytes e.ecdsa &&
        Config.lmsVerifies e.lmsKey e.bytes e.lms && Config.ecdsaVerifies e.ecdsaKey (bytesOf 56 e.lmsKey) e.treeCert
      ∀ r : Instr × Nat × Bool, r ∈ [(Instr.getVersion i ok, 0, ok), (.getCapabilities i ok, 1, ok),
        (.negotiateAlgorithms i algs, 2, agreed), (.getDigests i ok, 3, ok), (.getCertificate i ok, 4, ok), (.challenge i ok, 5, ok),
        (.getMeasurements i e, 6, attested), (.keyExchange i ok, 7, ok), (.finish i ok, 8, ok)] →
      ∃ t, exec r.1 s = .next t ∧ t.hart = s.hart ∧ (st = 1 → (s.port i).spdm = r.2.1 → r.2.2 = true →
          (t.port i).spdm = r.2.1 + 1 ∧ t.portState i = 1 ∧
          (t.port i).established = (decide (r.2.1 = 8) || (s.port i).established) ∧
          (r.2.1 = 4 → t.fabric.out = s.fabric.out ++ [.certificate i
            { chain := Config.freeChain, key := Config.identityKey, ecdsa := Config.identityEcdsa, lms := Config.identityLms }]) ∧
          (r.2.1 = 6 → t.fabric.out = s.fabric.out ++ [.measurements i s.ownEvidence])) ∧
        (st = 1 → (s.port i).spdm = r.2.1 → r.2.2 = false → error t 1) ∧ (st ≠ 1 ∨ (s.port i).spdm ≠ r.2.1 → t = s)) ∧
    (∀ sender : Bool, ∃ t, exec (.keyUpdate ⟨i, sender⟩) s = .next t ∧ t.hart = s.hart ∧
      let may := (s.port i).established = true ∧ (sender = true → 2 ^ 47 ≤ (s.port i).send.flits)
      (may → epoch t = (epoch s + 1) % 2 ^ 32 ∧ (if sender then (t.port i).send.flits else (t.port i).recv.flits) = 0) ∧
      (¬ may → t = s)) ∧
    (∀ tagOk rep, ∃ t, exec (.flitReceive i tagOk rep) s = .next t ∧ t.hart = s.hart ∧ (st ≠ 2 → t = s) ∧
      (st = 2 → tagOk = true → (s.port i).recv.flits + 1 < 2 ^ 48 →
        (t.port i).recv.flits = (s.port i).recv.flits + 1 ∧ t.portState i = 2) ∧
      (st = 2 → tagOk = false ∨ 2 ^ 48 ≤ (s.port i).recv.flits + 1 → error t 3)) ∧
    (∀ ok, ∃ t, exec (.linkRetrain i ok) s = .next t ∧ t.hart = s.hart ∧
      (t.port i).retrains = (if ok then 0 else (s.port i).retrains + 1) ∧
      (ok = false → 2 ≤ (s.port i).retrains → st = 2 → error t 4))) ∧
  (∀ (s : State) (i : Nat) (ok : Bool) (algs : List SpdmAlgorithm) (e : EvidenceBlock), s.eft.booted = false →
    ∀ r ∈ [Instr.getVersion i ok, .getCapabilities i ok, .negotiateAlgorithms i algs, .getDigests i ok, .getCertificate i ok,
        .challenge i ok, .getMeasurements i e, .keyExchange i ok, .finish i ok],
      exec r s = .next { s with fabric := { s.fabric with out := s.fabric.out ++ [.managementNack] } }) ∧
  (∀ (s : State) (port a : Nat), s.hostOn port = true →
    (∀ bs : List Byte, bs ≠ [] → a + bs.length ≤ Config.deviceEnd → s.hostWrites = [] →
      Storable s ((List.range bs.length).map fun k => Loc.dev (a + k)) →
      ∃ t, exec (.hostWrite port a bs) s = .next t ∧ t.hart = s.hart ∧ t.hostWrites = [] ∧
        Stored s t ((List.range bs.length).map fun k => Loc.dev (a + k)) bs) ∧
    (∀ n, a + n ≤ Config.deviceEnd → ∃ t, exec (.hostRead port a n) s = .next t ∧ t.hart = s.hart ∧ SameBytes s t ∧
      t.fabric.out = s.fabric.out ++ [.hostData port a ((List.range n).map fun k => s.byteAt (.dev (a + k)))])) ∧
  (∀ (s : State) (port : Nat), port < 2 →
    (∃ t, exec (.hostLinkDown port) s = .next t ∧ t.hart = s.hart ∧ SameBytes s t ∧ t.hostOn port = false ∧
      t.eft.alerts = s.eft.alerts ++ [.hostLink port false]) ∧
    (bits s.eft.portModes (2 * port + 1) (2 * port) ≤ 1 → ∃ t, exec (.hostLinkUp port) s = .next t ∧ t.hart = s.hart ∧ SameBytes s t ∧
      t.hostOn port = true ∧ t.eft.alerts = s.eft.alerts ++ [.hostLink port true]))

/-- Checking points accept or poison a group, scores fall, test leases start and end, a failed resource retires, a row
moves to a spare (R357, R361, R362, R364, R365, R367, R369, R370, R372). That a group is checked by one event whose
argument lists the rounds, that a resource without work of its own is tested at once, and that a pseudo-channel is never
retired as a whole are the model's reading (log entries 14, 48, 49). -/
def Obligations.SilentErrors : Prop :=
  ∀ s : State, MemoriesWf s → Apart s →
    (∀ u us, s.hart.unchecked = u :: us →
      (∃ t, exec (.checkingPoint s.focus []) s = .next t ∧ SameBytes s t ∧
        t.hart = { s.hart with unchecked := us.map fun k => { k with base := k.base ||| u.flags } }) ∧
      (∃ t, exec (.checkingPoint s.focus [.both, .both, .both]) s = .next t ∧ t.hart.unchecked = us ∧
        ∀ w ∈ u.group, w.kind ≠ 5 → w ∈ t.hart.ctx.poison) ∧
      (∀ n, s.laneIndex u.lane = some n → n < 38016 →
        ∃ t, exec (.checkingPoint s.focus [.working]) s = .next t ∧ t.score 2 n = min 255 (s.score 2 n + 32) ∧ t.hart.unchecked.length = us.length)) ∧
    (s.hart.unchecked = [] → ∀ rounds, exec (.checkingPoint s.focus rounds) s = .next s) ∧
    (∀ kind i, isResource kind i = true → s.pinnedScore kind i = false → ∃ t, exec (.scoreDecay kind i) s = .next t ∧
      t.score kind i = s.score kind i - 1 ∧ t.inState kind i = s.inState kind i ∧ t.hart = s.hart) ∧
    (∀ kind i, isResource kind i = true → s.moltLease kind i = none → s.scopeBusy kind i = false →
      (kind ≠ 1 ∧ kind ≠ 2 ∧ s.inState kind i = 0) ∨ (kind = 1 ∧ s.inState kind i = 3) →
      (kind = 3 → s.portState i = 2 → ∀ e ∈ s.fabric.sent, e.way ≠ .port i) →
      ∃ t l, exec (.testLease kind i) s = .next t ∧ t.hart = s.hart ∧ t.inState kind i = 1 ∧ t.moltLease kind i = some l ∧
        l.testing = true ∧ (kind = 3 → s.portState i = 2 → t.portState i = 0) ∧
        (kind = 4 → ∀ k, s.standInOf i = some k → (i, k) ∈ t.molt.standIns)) ∧
    (∀ i e, isResource 3 i = true → s.moltLease 3 i = none → s.scopeBusy 3 i = false → s.inState 3 i = 0 → s.portState i = 2 →
      e ∈ s.fabric.sent → e.way = .port i → ∃ t, exec (.testLease 3 i) s = .next t ∧ t.hart = s.hart ∧ SameBytes s t ∧
        t.fabric.sent = s.fabric.sent ∧ (t.port i).leaving = true ∧ ∃ l, t.moltLease 3 i = some l ∧ l.testing = false) ∧
    (∀ i, isResource 2 i = true → exec (.testLease 2 i) s = exec (.testLease 1 (i / 33)) s) ∧
    (∀ kind i l pass, s.moltLease kind i = some l → s.suspended l = true → exec (.testPassEnd kind i pass) s = .next s) ∧
    (∀ kind i l, s.moltLease kind i = some l → l.testing = true → s.suspended l = false →
      (∃ t, exec (.testPassEnd kind i true) s = .next t ∧ t.hart = s.hart ∧ t.moltLease kind i = none ∧
        t.score kind i = min (s.score kind i) 96 ∧ t.leaseCount kind i = (s.leaseCount kind i + 1) % 2 ^ 16 ∧
        t.inState kind i = if kind = 1 then 3 else 0) ∧
      (kind = 1 → 160 ≤ s.score kind i → ∃ t, exec (.testPassEnd kind i false) s = .next t ∧ t.hart = s.hart ∧ t.inState kind i = 2 ∧
        resourceId kind i ∈ t.eft.retired ∧ t.moltLease kind i = none ∧ t.eft.nextSeq = s.eft.nextSeq + 1) ∧
      (kind = 6 → 160 ≤ s.score kind i → ∃ t, exec (.testPassEnd kind i false) s = .next t ∧ t.hart = s.hart ∧ t.inState kind i = 0 ∧
        t.moltLease kind i = none)) ∧
    (∀ ch row n rest bad, isResource 6 ch = true → (∀ u ∈ s.molt.lent, u.1 ≠ ch) → s.rowSettled ch row = false →
      s.freeSpares ch = n :: rest → n ∉ bad → ∃ t, exec (.rowSpareCopy ch row bad true) s = .next t ∧ t.hart = s.hart ∧ SameBytes s t ∧
        t.molt.usedSpares = s.molt.usedSpares ++ [(ch, row, n)] ∧ t.eft.nextSeq = s.eft.nextSeq + 1)

/-- Grants give units in order, queued stores leave, an arriving request is bound, acted on once and answered, answers
complete their instruction (R34, R35, R36, R82, R113, R223, R224, R225, R376, R377, R379, R381). When an access is
performed, that the first SEQ of a source sets its count, what a refusal at another endpoint holds of the units here
(log entry 100), how the queues of several groups share one list and that every port reaches every endpoint are the
model's reading (log entries 8, 72, 75, 86, 100). -/
def Obligations.RemoteTraffic : Prop :=
  ∀ s : State,
    (∀ ep u, s.fabric.heldSelf ep = false → ep = s.fabric.eid ∨ s.linked = true → (∀ w ∈ s.fabric.waits, w.ep ≠ ep) → ∃ t, exec (.allowanceGrant ep u) s = .next t ∧
      t.hart = s.hart ∧ SameBytes s t ∧ t.fabric.waits = s.fabric.waits ∧ t.fabric.unitsFor ep = s.fabric.unitsFor ep + u) ∧
    (∀ ep, s.fabric.heldSelf ep = true ∨ (ep ≠ s.fabric.eid ∧ s.linked = false) → exec (.allowanceReservedGrant ep) s = .next s) ∧
    (∀ ep u, (ep = s.fabric.eid ∧ s.fabric.heldSelf ep = true) ∨ (ep ≠ s.fabric.eid ∧ s.linked = false) → exec (.allowanceGrant ep u) s = .next s) ∧
    (∀ ep u, ep ≠ s.fabric.eid → s.linked = true → s.fabric.heldSelf ep = true → (∀ w ∈ s.fabric.waits, w.ep ≠ ep) →
      ∃ t, exec (.allowanceGrant ep u) s = .next t ∧ t.hart = s.hart ∧ SameBytes s t ∧ t.fabric.heldSelf ep = false ∧
        t.fabric.unitsFor ep = s.fabric.unitsFor ep + u) ∧
    (∀ w n, s.fabric.waits = [w] → w.got < w.u → w.u ≤ w.got + (s.fabric.unitsFor w.ep + n) → w.who = .hart s.focus →
      s.hart.run = .units w.ep w.u → s.fabric.heldSelf w.ep = false → w.ep = s.fabric.eid ∨ s.linked = true →
      ∀ i ∈ [Instr.allowanceGrant w.ep n, if n = 1 then .allowanceReservedGrant w.ep else .allowanceGrant w.ep n],
        ∃ t, exec i s = .next t ∧ t.hart = { s.hart with run := .running } ∧ t.fabric.waits = [{ w with got := w.u }] ∧
          t.fabric.unitsFor w.ep = w.got + (s.fabric.unitsFor w.ep + n) - w.u) ∧
    (∀ ep, (∀ w ∈ s.fabric.waits, w.ep ≠ ep) → (∀ k ∈ s.fabric.kept, k.ep ≠ ep) → exec (.allowanceReservedGrant ep) s = .next s) ∧
    (∀ cid q r, (s.core cid).outq = q :: r → s.fabric.waits = [] → (∀ ep, s.fabric.heldSelf ep = false) →
      (∀ l ∈ (s.core cid).comb, l.full = false ∧ l.due = false) → (∀ d ∈ q :: r, s.msgAhead cid (d.gid, d.coid) d.ep = false) →
      (q.u ≤ s.fabric.unitsFor q.ep → ∃ t e, exec (.remoteStoreSend cid) s = .next t ∧ t.hart = s.hart ∧ SameBytes s t ∧
        (t.core cid).outq = r ∧ t.fabric.sent = s.fabric.sent ++ [e] ∧ e.op = q.op ∧ e.ep = q.ep ∧ e.cid = cid ∧
        t.fabric.unitsFor q.ep = s.fabric.unitsFor q.ep - q.u) ∧
      (∀ q2 r2, s.fabric.unitsFor q.ep < q.u → r = q2 :: r2 → q.group ≠ q2.group → q.ep ≠ q2.ep → q2.u ≤ s.fabric.unitsFor q2.ep →
        ∃ t e, exec (.remoteStoreSend cid) s = .next t ∧ t.hart = s.hart ∧ SameBytes s t ∧ (t.core cid).outq = q :: r2 ∧
          t.fabric.sent = s.fabric.sent ++ [e] ∧ e.op = q2.op ∧ e.ep = q2.ep ∧ e.cid = cid) ∧
      (s.fabric.unitsFor q.ep < q.u → r = [] → ∃ t, exec (.remoteStoreSend cid) s = .next t ∧ t.hart = s.hart ∧
        t.fabric.waits = [{ ep := q.ep, u := q.u, got := 0, who := .stores cid }])) ∧
    (∀ cid n l, (s.core cid).comb[n]? = some l →
      (l.since + 4096 ≤ (s.core cid).cycle → ∃ t, exec (.combineFlushTimeout cid n) s = .next t ∧ t.hart = s.hart ∧ SameBytes s t ∧
        ((s.core cid).outq.length < 64 → (∀ k ∈ (s.core cid).comb, k.due = false) →
          l ∉ (t.core cid).comb ∧ { l with due := true } ∉ (t.core cid).comb ∧ l.store s.groupOf ∈ (t.core cid).outq) ∧
        (64 ≤ (s.core cid).outq.length → { l with due := true } ∈ (t.core cid).comb ∧ (t.core cid).outq = (s.core cid).outq)) ∧
      ((s.core cid).cycle < l.since + 4096 → exec (.combineFlushTimeout cid n) s = .next s)) ∧
    (∀ r : Req, s.seqAt r = .again → r.sep ≠ s.fabric.eid → s.linked = true → ∃ t, exec (.remoteRequest r) s = .next t ∧
      t.hart = s.hart ∧ SameBytes s t ∧ t.fabric.out = s.fabric.out ++ [.response r.sep r.scid r.rid .ack]) ∧
    (∀ r : Req, r.sep ≠ s.fabric.eid → s.linked = false → exec (.remoteRequest r) s = .next s) ∧
    (∀ r : Req, s.seqAt r = .next → r.sep ≠ s.fabric.eid → s.linked = true → s.boundTo r.sep r.spart = none ∨ r.vc ≠ vcOf r.op →
      ∃ t, exec (.remoteRequest r) s = .next t ∧ t.hart = s.hart ∧ SameBytes s t ∧ t.seqAt r = .again ∧
        t.fabric.out = s.fabric.out ++ [.nack r.sep r.scid r.rid]) ∧
    (∀ (r : Req) (part : Nat) (wr : Bool), s.seqAt r = .next → s.boundTo r.sep r.spart = some (part, wr) → s.partState part = 1 →
      r.sep ≠ s.fabric.eid → s.linked = true → r.vc = 0 →
      let answer := fun (t : State) (x : Resp) => t.hart = s.hart ∧ t.fabric.out = s.fabric.out ++ [.response r.sep r.scid r.rid x] ∧
        t.seqAt r = .again
      (∀ a n ls, r.op = .load a n → packetOkFor a.toNat n = true → s.remoteSpot part a.toNat n false = .ok ls →
        (∀ l ∈ ls, s.poisonAt l = false) →
        ∃ t, exec (.remoteRequest r) s = .next t ∧ answer t (.data (ls.map s.byteAt) []) ∧ SameBytes s t) ∧
      (∀ a (bs : List Byte) (pl : Nat → Loc), r.op = .store a (bs.map some) [] → packetOkFor a.toNat bs.length = true → wr = true →
        (∀ k < bs.length, s.remoteSpot part ((a.toNat + k) % 2 ^ 64) 1 true = .ok [pl k]) →
        Storable s ((List.range bs.length).map pl) →
        ∃ t, exec (.remoteRequest r) s = .next t ∧ answer t .ack ∧ Stored s t ((List.range bs.length).map pl) bs) ∧
      (∀ a d b p z x y, (r.op = .store a d b ∧ wr = false) ∨ (r.op = .atomic p z a x y ∧ 9 < p.toNat) → ∃ t, exec (.remoteRequest r) s = .next t ∧ t.hart = s.hart ∧ SameBytes s t ∧
        t.fabric.out = s.fabric.out ++ [.nack r.sep r.scid r.rid] ∧ t.seqAt r = .again) ∧
      (∀ p z a b c (q : Spot), r.op = .atomic p z a b c → p.toNat ≤ 9 → wr = true → s.atomicSpot part a.toNat (if z then 8 else 4) = .ok q →
        Storable s q.locs → q.locs.length = (if z then 8 else 4) →
        let w := 8 * q.locs.length
        ∃ t, exec (.remoteAtomicRequest r) s = .next t ∧ answer t (.value (BitVec.ofInt 64 (signedOf w (s.numAt q.locs)))) ∧
          Stored s t q.locs (bytesOf q.locs.length (amoValue p.toNat w (s.numAt q.locs) b.toNat c.toNat))) ∧
      (∀ v ls, v.kind = 1 ∨ v.kind = 2 → 0 < v.vl → v.vl ≤ 256 → v.reserved = 0 → (v.act.drop v.vl).any id = false →
        (vecAddrs v).mapM (fun a => s.remoteSpot part a (2 ^ v.esz) false) = .ok ls → (∀ l ∈ ls.flatten, s.poisonAt l = false) →
        ∃ t, exec (.vectorRequest r v) s = .next t ∧ answer t (.data (ls.flatten.map s.byteAt) []) ∧ SameBytes s t)) ∧
    (∀ rid r, s.fabric.sent.find? (fun e => e.rid == rid) = some r → s.answerable r = false →
      (∀ x, exec (.remoteResponse rid x) s = .next s) ∧ exec (.remoteAcknowledgement rid) s = .next s ∧
      (r.way ≠ .lost → exec (.remoteNack rid) s = .next s)) ∧
    (∀ rid r, s.fabric.sent.find? (fun e => e.rid == rid) = some r → s.answerable r = true → (∀ i, (s.port i).leaving = false) →
      let gone := fun t : State => ∀ e ∈ t.fabric.sent, e.rid ≠ rid
      (∀ d z v, r.cont = .ratom s.focus d z → s.hart.run = .remote rid → ∃ t, exec (.remoteResponse rid (.value v)) s = .next t ∧
        t.hart = { (wroteX s (Fin.ofNat 32 d) (if z then v else BitVec.ofInt 64 (signedOf 32 (v.toNat % 2 ^ 32)))).hart with run := .running } ∧
        gone t ∧ SameBytes s t) ∧
      (r.cont = .arrive s.focus → s.hart.run = .remote rid → ∃ t, exec (.remoteAcknowledgement rid) s = .next t ∧
        t.hart = { (wentTo s (s.hart.ctx.pc + 4)).hart with run := .running } ∧ gone t ∧ SameBytes s t) ∧
      (∀ c g n b, r.cont = .store c g n b → ∃ t, exec (.remoteAcknowledgement rid) s = .next t ∧ t.hart = s.hart ∧ gone t ∧ SameBytes s t) ∧
      (∀ d z, r.cont = .ratom s.focus d z → s.hart.run = .remote rid → NoStrip s → MayTrap s →
        ∃ t, exec (.remoteNack rid) s = .next t ∧ gone t ∧ SameBytes s t ∧ t.hart.scause = word (causeCode .remoteAccess) ∧
          t.hart.sepc = s.hart.ctx.pc ∧ t.hart.stval = opBase r.op ∧ t.hart.stval2 = word r.ep ∧ t.hart.ctx.x = s.hart.ctx.x))

/-- Notices wake the coroutines whose tokens are signalled, contributions land, messages enter rings and make handler
coroutines (R22, R23, R88, R91, R93, R95, R96, R399, R400). The layout and the order of the overflow ring, when a head
without handler is looked at again, that a handler waits for room in the context cache and that none is made on a core
of a DRAINING partition are the model's reading (log entries 10, 40, 41, 60, 114). -/
def Obligations.SyncAndMessageEvents : Prop :=
  ∀ s : State,
    (∀ cid gran l, s.granSpot (s.rootsOf (s.partOf cid)).1 true false gran = .ok l → s.syncV l = true →
      ∀ i ∈ [Instr.wakeNotice cid gran, .waiterReread cid gran], ∃ t, exec i s = .next t ∧ t.hart = s.hart ∧ SameBytes s t ∧
        ∀ k ∈ (s.core cid).coros, ∀ toks inb xl u hs d redo, k.wait = .token toks inb xl u hs d redo →
          (∃ tok ∈ toks, tokenEp tok = s.fabric.eid ∧ tokenGran tok = gran ∧ signalledBy (s.syncGen l) tok = true) →
          ∃ k2 ∈ (t.core cid).coros, k2.gid = k.gid ∧ k2.coid = k.coid ∧ k2.met = true) ∧
    (∀ tok n cid l, tokenEp tok = s.fabric.eid → s.heldContributions = [] →
      s.granSpot (s.rootsOf (s.partOf cid)).1 true true (tokenGran tok) = .ok l → Unheld s (l.run 16) → s.syncV l = true →
      exec (.contribute tok n (.core cid)) s = .next (s.contributeAt l n)) ∧
    (∀ h l, s.heldContributions = [h] → s.granSpot h.root h.user true (tokenGran h.tok) = .ok l → Unheld s (l.run 16) →
      s.syncV l = true → (∀ c ∈ s.copies, c.id ≠ h.xfer) →
      exec (.heldContributionRewalk 0) s =
        .next { (match h.gen with | none => s.contributeAt l h.n | some g => s.advanceAt l g) with heldContributions := [] }) ∧
    (∀ (cid : Nat) (m : Msg) (r : Req),
      let c := s.core cid
      let fits := m.units ≤ c.inboxUnits - c.inboxW ∧ m.units ≤ c.free
      let entered := fun t : State => t.hart = s.hart ∧ (t.core cid).inboxSeen = c.inboxSeen + 1 ∧
        (t.core cid).inboxW = (c.inboxW + m.units) % c.inboxUnits ∧
        (t.core cid).inbox = c.inbox ++ [{ unit := c.inboxW, units := m.units, pad := false, msg := m, made := false, raised := false, released := false }]
      let comes := r.sep ≠ s.fabric.eid ∧ s.linked = true ∧ s.seqAt r = .next ∧ r.vc = 2 ∧ cid < Config.cores ∧
        s.boundTo r.sep r.spart = some (s.partOf cid, true) ∧ s.partState (s.partOf cid) = 1 ∧ s.behindOwnMsg cid m = false
      let answered := fun (t : State) (x : Resp) => t.seqAt r = .again ∧ t.fabric.out = s.fabric.out ++ [.response r.sep r.scid r.rid x]
      (comes → fits → c.ovf = [] → s.ringLeased cid = false → c.behindRefused m = false →
        ∃ t, exec (.messageArrival r ⟨cid, m⟩) s = .next t ∧ entered t ∧ answered t .ack) ∧
      (comes → c.behindRefused m = true → ∃ t, exec (.messageArrival r ⟨cid, m⟩) s = .next t ∧ t.hart = s.hart ∧ SameBytes s t ∧
        (t.core cid).inbox = c.inbox ∧ answered t .held) ∧
      (∀ p, r.sep ≠ s.fabric.eid → s.linked = true → s.seqAt r = .next → s.boundTo r.sep r.spart = some (p, false) →
        ∃ t, exec (.messageArrival r ⟨cid, m⟩) s = .next t ∧ t.hart = s.hart ∧ SameBytes s t ∧ (t.core cid).inbox = c.inbox ∧
          t.fabric.out = s.fabric.out ++ [.nack r.sep r.scid r.rid]) ∧
      (comes → c.free < m.units → c.ovfQuota < c.ovfUnits + m.units → c.asyncs.length < Config.maxAsyncTraps → s.ringLeased cid = false →
        c.behindRefused m = false → ∃ t, exec (.messageArrival r ⟨cid, m⟩) s = .next t ∧ t.hart = s.hart ∧ SameBytes s t ∧
          answered t .held ∧ m.sep ∈ (t.core cid).holds ∧ m.sep ∈ t.fabric.heldAt ∧
          (m.sep = s.fabric.eid → t.fabric.unitsFor m.sep = 0) ∧ (t.core cid).asyncs = c.asyncs ++ [{ cause := .inboxQuota, val := word m.sep, val2 := word m.scid }]) ∧
      (∀ rest, fits → s.ringLeased cid = false → c.ovf = m :: rest → ∃ t, exec (.overflowMove cid) s = .next t ∧ entered t ∧ (t.core cid).ovf = rest) ∧
      (∀ rest, fits → s.ringLeased cid = false → c.ovf = [] → c.generated = m :: rest →
        (s.onCore cid fun c => { c with generated := [] }).behindOwnMsg cid m = false → ∃ t, exec (.generatedMsgPlace cid) s = .next t ∧ entered t ∧
        (t.core cid).generated = rest)) ∧
    (∀ k rest, s.fabric.kept = k :: rest → s.fabric.heldSelf k.ep = false →
      ∃ t e, exec (.messageResend 0) s = .next t ∧ t.hart = s.hart ∧ SameBytes s t ∧ t.fabric.kept = rest ∧
        t.fabric.sent = s.fabric.sent ++ [e] ∧ e.op = .msg k.dcid k.msg ∧ e.ep = k.ep) ∧
    (∀ cid r, s.halts cid = false → (s.core cid).inbox.find? (fun r => !r.pad && !r.made) = some r →
      (∀ w0 w1 g, s.vectorEntry cid r.msg.type = some (w0, w1) → bit w1 63 = true →
        s.gangs.find? (fun g => g.gid == bits w1 47 32 && g.part == s.partOf cid && !g.ending) = some g →
        (s.core cid).coros.length < Config.maxCoroutines → SlotFree s cid (bits w1 1 0) →
        ∃ t, ∃ k ∈ (t.core cid).coros, exec (.handlerCreate cid) s = .next t ∧ t.hart = s.hart ∧ k.gid = g.gid ∧ k.coid = s.nextCoid g ∧
          k.met = true ∧ k.inboxRec = some (cid, r.unit) ∧ k.ctx.pc = word (bits w0 56 2 * 4) ∧ k.ctx.x[8] = word (msgHeader r.msg) ∧
          k.ctx.x[9] = word (0x0100000000000000 + ((s.core cid).inboxOff + r.unit) * 64)) ∧
      (s.vectorEntry cid r.msg.type = none → r.raised = true → exec (.handlerCreate cid) s = .next s) ∧
      (s.vectorEntry cid r.msg.type = none → r.raised = false → (s.core cid).asyncs.length < Config.maxAsyncTraps →
        ∃ t, exec (.handlerCreate cid) s = .next t ∧ t.hart = s.hart ∧ (t.core cid).asyncs = (s.core cid).asyncs ++
          [{ cause := .msgNohandler, val := word (msgHeader r.msg), val2 := word r.msg.type }]))

/-- A piece of a copy lands with the bytes of its source, a page comes into its frame, a push lands in its grid frame
(R98, R127, R247, R248, R337, R338, R339). -/
def Obligations.CopyAndPushEvents : Prop :=
  ∀ s : State, MemoriesWf s →
    let moves := fun (c : Copy) (row skip len : Nat) (ps pd : Spot) =>
      let a := ((c.row row).1 + word skip).toNat
      let b := ((c.row row).2 + word skip).toNat
      (∀ r ∈ s.fabric.sent, ∀ x y z, r.cont ≠ .copy c.id x y z) ∧ c.p.sk ≤ 1 ∧ c.p.dk ≤ 1 ∧ c.p.tk = false ∧ c.p.cm = false ∧
      len ≤ roomAt c.p.sk a ∧ len ≤ roomAt c.p.dk b ∧
      s.copySide c c.p.sk (c.row row).1.toNat a len false = .ok ps ∧ ps.tiers = [] ∧
      s.copySide c c.p.dk (c.row row).2.toNat b len true = .ok pd ∧ pd.tiers = [] ∧
      ps.locs.length = len ∧ pd.locs.length = len ∧ (∀ l ∈ ps.locs, s.poisonAt l = false) ∧ Storable s pd.locs
    let landed := fun (t : State) (n : Nat) (c : Copy) (row skip len : Nat) (ps pd : Spot) =>
      t.hart = s.hart ∧ Stored s t pd.locs (ps.locs.map s.byteAt) ∧
      (c.got + len < c.total → ∃ c2, t.copy? n = some c2 ∧ c2.got = c.got + len ∧ c2.landed = c.landed ++ [(row, skip, len)] ∧ c2.held = .no) ∧
      (c.total ≤ c.got + len → (∀ h ∈ s.heldContributions, h.xfer ≠ c.id) →
        (∀ r ∈ s.fabric.sent, ∀ w x, r.cont ≠ .contribution w c.id x) → t.copy? n = none)
    (∀ (n row skip len row' skip' len' : Nat) (c : Copy) (ps pd : Spot), s.copy? n = some c →
      (c.held = .no → c.piece row skip len = some (row', skip', len') → moves c row' skip' len' ps pd →
        ∃ t, exec (.copyPieceLand n row skip len) s = .next t ∧ landed t n c row' skip' len' ps pd) ∧
      (∀ f, c.held = .walk f → c.piece 0 0 0 = some (row', skip', len') → moves c row' skip' len' ps pd →
        ∃ t, exec (.copyRewalk n) s = .next t ∧ landed t n c row' skip' len' ps pd)) ∧
    (∀ n g u, s.pageins.filter (fun g => g.entry == n && g.frame.isNone) = [g] →
      (∀ f, s.takeFrame g.part g.size = (some f, u) → ∃ t ids, exec (.pageInFrameRetry n) s = .next t ∧ t.hart = s.hart ∧
        { g with frame := some f, noframe := false, waiters := ids } ∈ t.pageins ∧ (∀ id ∈ g.waiters, id ∈ ids) ∧
        Turn.event (.pageInComplete g.entry) ∈ t.agenda) ∧
      (s.takeFrame g.part g.size = (none, u) → ∃ t, exec (.pageInFrameRetry n) s = .next t ∧ t.hart = s.hart ∧
        { g with noframe := true } ∈ t.pageins)) ∧
    (∀ n g f, s.pageins.find? (fun g => g.entry == n && g.frame.isSome) = some g → g.frame = some f → s.tierUp = true →
      let frame := (Loc.dev f).run g.bytes
      let line := (Loc.dev g.entry).run 8
      Storable s frame → Storable s line → NoRecords s → (∀ l ∈ line, s.storage l ∉ frame.map s.storage) → f % 8 = 0 → pageInLeaf g.pte f < 2 ^ 64 →
      ∃ t, exec (.pageInComplete n) s = .next t ∧ t.hart = s.hart ∧ (∀ e ∈ t.pageins, e.entry ≠ g.entry) ∧
        t.dev8 g.entry = pageInLeaf g.pte f ∧
        (∀ o < g.bytes, t.byteAt (.dev (f + o)) = s.byteAt (.host (pteAddr g.pte + o)) ∧ t.fullAt (.dev (f + o)) = true) ∧
        (∀ id ∈ g.waiters, ∀ c ∈ t.copies, c.id = id → c.held = .no)) ∧
    (∀ (p : Push) (g : Grid), s.pushes = [p] →
      s.grids.find? (fun g => g.part == p.part && g.gid == p.gid && g.key == p.key) = some g →
      p.started = true ∨ (∀ k ∈ s.gangs, ¬ (k.gid = p.gid ∧ k.part = p.part ∧ k.ending = true)) →
      let j := g.localOf p.blk
      (∀ (k : Gang) (b : GBlock) (t2 : State), p.ep = s.fabric.eid → s.gangOfGrid g = some k →
        s.storeEls g k j (p.step % g.depth) p.els = .ok t2 → g.block j = some b →
        let here := ((b.parts.filter (· != (p.region, p.step, p.piece))).filter fun e => e.1 == p.region && e.2.1 == p.step).length + 1
        let need := (g.sources (s.gangGrids g) (g.globalOf s.fabric.eid j) p.region).length
        ∃ t g2 b2, exec (.skinkWriteLand 0) s = .next t ∧ t.hart = s.hart ∧ t.pushes = [] ∧ g2 ∈ t.grids ∧ g2.key = g.key ∧
          g2.part = g.part ∧ g2.block j = some b2 ∧ (need ≤ here → b2.tag (p.step % g.depth) p.region = some p.step) ∧
          (here < need → (p.region, p.step, p.piece) ∈ b2.parts) ∧ (b2.complete = b.complete → ∀ l, t.byteAt l = t2.byteAt l)) ∧
      (p.ep ≠ s.fabric.eid → p.held = .no → s.pushSent p = false → s.fabric.waits = [] →
        let els := p.els.take (g.packet p)
        let last := decide (p.els.length ≤ g.packet p)
        unitsOf (els.map (·.2.1.length)).sum ≤ s.fabric.unitsFor p.ep →
        ∃ t e, exec (.skinkWriteLand 0) s = .next t ∧ t.hart = s.hart ∧ SameBytes s t ∧ t.pushes = [{ p with started := true }] ∧
          t.fabric.sent = s.fabric.sent ++ [e] ∧ e.ep = p.ep ∧
          e.op = .push p.sn p.key p.blk p.region (2 * p.piece + flag (!last)) p.step els))

/-- Idle harts choose, quanta switch, pre-emption saves, restores, moves and discards, and pending traps are taken, as
their rows say (R26, R29, R30, R31, R32, R33, R130, R241, R251, R298, R304, R307). Model choices: no roll-back of a
strip whose stores commit, and the counts of 4,096 cycles (log entry 80), a record that cannot be read is refused as
CTX_FORMAT (log entry 37), traps of a hart with no coroutine (log entry 72), room in the context cache and what runs on
a core of another LPART (log entries 58, 60), and no choice on a core of a DRAINING partition (log entry 114). -/
def Obligations.SchedulingEvents : Prop :=
  ∀ (s : State) (cid h g n : Nat),
    let c := s.core cid
    let back : State := { s with hart := s.hart.restart }
    let mine := c.ctxBusy = true ∧ c.ctxGid = g ∧ c.ctxCoid = n
    let entered := fun (t : State) (cause : Nat) (tr : Trap) =>
      t.hart.scause = word (cause + tr.sub % 2 ^ 16 * 2 ^ 16 + causeCode tr.cause) ∧ t.hart.stval = tr.val ∧ t.hart.stval2 = tr.val2 ∧
      t.hart.ctx.pc = s.hart.stvec &&& 0x01FFFFFFFFFFFFFC ∧ t.hart.ctx.x = s.hart.ctx.x ∧ t.hart.level ≠ .user
    (s.focus = .hart cid h → s.hart.run = .idle → s.hart.occ = none → s.halts cid = false → c.spillWaits = false → s.overFull cid = false →
      (∀ k, c.choose h = some k → k.traps = [] → k.wait = .ready → ∃ t, exec (.hartSelect cid h) s = .next t ∧ SameBytes s t ∧
        t.hart = { s.hart with ctx := k.ctx, level := .user, run := .running, occ := some (k.gid, k.coid), aside := [], ran := 0 } ∧
        ∀ j ∈ (c.coros.map fun j => j.aged c.cycle).filter fun j => j.choosable h, j.cls ≤ k.cls) ∧
      (c.choose h = none → exec (.hartSelect cid h) s = .next s)) ∧
    (∀ k, c.coro g n = some k →
      (k.resident = false → k.running = false → k.met = true → s.recordCheck cid k = none → c.spillWaits = false →
        (s.onCoro cid g n fun _ => { s.loadRecord cid k with refusal := none }).overFull cid = false →
        ∃ t, exec (.contextFetch cid g n) s = .next t ∧ t.hart = s.hart ∧ SameBytes s t ∧
          (t.core cid).coro g n = some { s.loadRecord cid k with refusal := none }) ∧
      (∀ e, k.resident = false → k.running = false → k.met = true → s.recordCheck cid k = some e → k.refusal ≠ some e →
        c.asyncs.length < Config.maxAsyncTraps → ∃ t, exec (.contextFetch cid g n) s = .next t ∧ t.hart = s.hart ∧ SameBytes s t ∧
          (t.core cid).asyncs = c.asyncs ++ [{ cause := e, val := word k.coid, val2 := word k.gid }]) ∧
      (k.met = true → k.running = false → k.pre = false → ∃ t, exec (.priorityPromote cid g n) s = .next t ∧ t.hart = s.hart ∧
        (t.core cid).coro g n = some { k with promo := ((c.cycle - k.readyAt) / 4096).toNat }) ∧
      (k.pre = true → mine → ∃ t, exec (.preempt cid g n) s = .next t ∧ t.hart = s.hart ∧ SameBytes s t ∧
        (t.core cid).ctxErr = true ∧ (t.core cid).ctxBusy = false) ∧
      (k.pre = false → k.running = false → ∃ t k2, exec (.preempt cid g n) s = .next t ∧ t.hart = s.hart ∧
        (t.core cid).coro g n = some k2 ∧ k2.pre = true ∧ k2.ctx = k.ctx) ∧
      (k.pre = true → k.met = true → k.copyRecs = [] → s.recordCheck cid k = none → ∃ t k2, exec (.restore cid g n) s = .next t ∧
        t.hart = s.hart ∧ SameBytes s t ∧ (t.core cid).coro g n = some k2 ∧ k2.pre = false ∧ k2.ctx = k.ctx ∧
        k2.readyAt = (c.cycle : Int) - k.rage ∧ (t.core cid).ctxErr = false ∧ (t.core cid).ctxBusy = false) ∧
      (∀ e, k.pre = true → s.recordCheck cid k = some e → c.asyncs.length < Config.maxAsyncTraps → ∃ t, exec (.restore cid g n) s = .next t ∧
        t.hart = s.hart ∧ SameBytes s t ∧ (t.core cid).ctxErr = true ∧ (t.core cid).ctxBusy = false ∧
        (t.core cid).asyncs = c.asyncs ++ [{ cause := e, val := word k.coid, val2 := word k.gid }]) ∧
      (k.pre = true → c.ctxarg < Config.cores → s.partOf c.ctxarg = s.partOf cid → c.ctxarg ≠ cid → s.storesOf cid g n = false →
        (s.core c.ctxarg).coros.length < Config.maxCoroutines → (s.core c.ctxarg).kc = s.recordKc cid k → s.recordCheck cid k = none →
        (s.onCore c.ctxarg fun d => { d with coros := d.coros ++ [s.loadRecord cid k] }).overFull c.ctxarg = false →
        ∃ t, exec (.move cid g n) s = .next t ∧ t.hart = s.hart ∧ (t.core cid).coro g n = none ∧ (t.core cid).ctxErr = false ∧
          ∃ k2 ∈ (t.core c.ctxarg).coros, k2.gid = k.gid ∧ k2.coid = k.coid ∧ k2.ctx = (s.loadRecord cid k).ctx ∧
            k2.home = (s.core c.ctxarg).home) ∧
      (k.pre = true → c.ctxarg = cid → cid < Config.cores → s.storesOf cid g n = false → c.coros.length < Config.maxCoroutines →
        c.kc = s.recordKc cid k → ∃ t k2, exec (.move cid g n) s = .next t ∧ t.hart = s.hart ∧ SameBytes s t ∧
          (t.core cid).coro g n = some k2 ∧ k2 = { k with home := k2.home } ∧ (t.core cid).ctxErr = false ∧
          ∀ h2 < c.harts, (c.coros.filter fun j => !(j.gid == g && j.coid == n)).countP (·.home == k2.home) ≤
            (c.coros.filter fun j => !(j.gid == g && j.coid == n)).countP (·.home == h2)) ∧
      (k.pre = true → k.copyRecs = [] → (∀ gg, s.gangOn cid g = some gg → gg.job = none) → c.spillWaits = false → s.overFull cid = false →
        (∀ w ∈ s.fabric.waits, w.who ≠ .coro cid g n) →
        ∃ t, exec (.discard cid g n) s = .next t ∧ t.hart = s.hart ∧ SameBytes s t ∧ (t.core cid).coro g n = none ∧
          (t.core cid).ctxErr = false)) ∧
    (c.coro g n = none → mine → ∀ i ∈ [Instr.preempt cid g n, .restore cid g n, .move cid g n, .discard cid g n],
      ∃ t, exec i s = .next t ∧ t.hart = s.hart ∧ SameBytes s t ∧ (t.core cid).ctxErr = true ∧ (t.core cid).ctxBusy = false) ∧
    (Runner s cid h g n → (c.coro g n).isSome = true →
      let boundary := s.hart.run = .running ∧ s.hart.ctx.strip = none ∧ s.hart.blocks = [] ∧ s.hart.unchecked = []
      (c.quantum ≠ 0 → c.quantum ≤ s.hart.ran → ∃ t, exec (.quantumExpire cid h) s = .next t ∧ SameBytes s t ∧
        t.hart = if ∃ k ∈ c.coros, k.home = h ∧ k.running = false ∧ k.met = true ∧ k.pre = false then { s.hart with switchReq := true }
          else { s.hart with ran := 0 }) ∧
      (c.quantum ≠ 0 → s.hart.switchReq = true → boundary → CacheRoom s cid g n fullMask s.hart.ctx.m →
        ∃ t, exec (.quantumSwitch cid h) s = .next t ∧ SameBytes s t ∧ SetAside s t cid g n .ready true fullMask s.hart.ctx.pc) ∧
      (c.quantum = 0 → exec (.quantumSwitch cid h) s = .next { s with hart := { s.hart with switchReq := false } } ∧
        exec (.forcedRollback cid h) s = .next s) ∧
      (∀ q, s.hart.ctx.strip = some q → s.hart.committing = false → s.hart.unchecked = [] → CacheRoom back cid g n fullMask back.hart.ctx.m →
        (c.quantum ≠ 0 → s.hart.switchReq = true → s.hart.run = .running → 2 * c.quantum ≤ s.hart.ran →
          ∃ t, exec (.forcedRollback cid h) s = .next t ∧ SameBytes s t ∧ SetAside back t cid g n .ready true fullMask q.pc) ∧
        (∀ old b x w, s.hart.run = .stall old → 4096 ≤ s.hart.held → s.hart.blocks.head? = some b → b.words[b.idx]? = some x →
          decodeE x.toNat = some (.vldg w) →
          (∃ u, exec (.vldg w) s = .next u ∧
            exec (.stallTimeout cid h) s = .next (match u.hart.run with | .stall tok => u.stallSave cid tok | _ => u)) ∧
          (∀ tok l, exec (.vldg w) s = .next { s with hart := { s.hart with run := .stall tok } } → tokenEp tok = s.fabric.eid →
            s.granSpot (s.rootsOf (s.partOf cid)).1 true false (tokenGran tok) = .ok l → s.syncV l = true →
            signalledBy (s.syncGen l) tok = false → ∃ t, exec (.stallTimeout cid h) s = .next t ∧ SameBytes s t ∧
              SetAside back t cid g n (.token [tok] false 0 none [] 0 true) false fullMask q.pc)) ∧
        (s.hart.run = .ring → 4096 ≤ s.hart.held → ∃ t, exec (.mrotWithdraw s.focus) s = .next t ∧ SameBytes s t ∧
          SetAside back t cid g n .ready true fullMask q.pc) ∧
        (s.hart.preemptReq = true → s.hart.run = .running → 4096 ≤ s.hart.asked → (∀ o ∈ s.copies, o.p.dk ≠ 3) →
          ∃ t k, exec (.preemptRollback cid h) s = .next t ∧ t.hart.occ = none ∧ (t.core cid).coro g n = some k ∧ k.pre = true ∧
            k.running = false ∧ k.ctx.pc = q.pc ∧ k.ctx.x = q.x)) ∧
      (s.hart.preemptReq = true → boundary → (∀ o ∈ s.copies, o.p.dk ≠ 3) → ∃ t k, exec (.preemptTake cid h) s = .next t ∧
        t.hart.occ = none ∧ (t.core cid).coro g n = some k ∧ k.pre = true ∧ k.running = false ∧ k.ctx.pc = s.hart.ctx.pc ∧
        k.ctx.x = s.hart.ctx.x) ∧
      (∀ k tr r, c.coro g n = some k → k.traps = tr :: r → boundary → ∃ t k2, exec (.pendingTrapDeliver s.focus) s = .next t ∧
        SameBytes s t ∧ entered t 0 tr ∧ t.hart.sepc = s.hart.ctx.pc ∧ (t.core cid).coro g n = some k2 ∧ k2.traps = r)) ∧
    (∀ tr r, c.asyncs = tr :: r → s.asyncAgent cid = s.focus → s.asyncOk = true → s.hart.ctx.strip = none →
      ∃ t, exec (.asyncTrapTake cid) s = .next t ∧ SameBytes s t ∧ entered t (2 ^ 63) tr ∧ t.hart.sepc = s.hart.ctx.pc ∧
        (t.core cid).asyncs = r ++ c.asyncsWaiting.take 1) ∧
    (∀ tr r q, c.asyncs = tr :: r → s.asyncAgent cid = s.focus → s.asyncFree = true → s.hart.run = .running → s.hart.ctx.strip = some q →
      s.hart.committing = false → s.hart.unchecked = [] → 4096 ≤ s.hart.due → ∃ t, exec (.asyncTrapTake cid) s = .next t ∧ SameBytes s t ∧ t.hart.sepc = q.pc ∧ t.hart.ctx.x = q.x ∧
        t.hart.scause = word (2 ^ 63 + 2 ^ 62 + tr.sub % 2 ^ 16 * 2 ^ 16 + causeCode tr.cause) ∧
        (t.core cid).asyncs = r ++ c.asyncsWaiting.take 1) ∧
    (s.halts cid = true → s.focus = .hart cid h → s.hart.run = .idle → s.hart.occ = none → c.spillWaits = false → s.overFull cid = false →
      exec (.hartSelect cid h) s = .next s) ∧
    (s.halts cid = true → exec (.handlerCreate cid) s = .next s) ∧
    (s.hart.committing = true → s.hart.ctx.strip.isSome = true → s.focus = .hart cid h → ∀ i ∈ [Instr.forcedRollback cid h, .mrotWithdraw s.focus,
      .stallTimeout cid h, .preemptRollback cid h], exec i s = .next s) ∧
    (∀ tr r, s.hart.occ = none → s.hart.traps = tr :: r → s.asyncFree = true → s.hart.ctx.strip = none → s.hart.blocks = [] →
      s.hart.unchecked = [] → s.hart.run = .running ∨ s.hart.run = .idle → ∃ t, exec (.pendingTrapDeliver s.focus) s = .next t ∧
        SameBytes s t ∧ entered t 0 tr ∧ t.hart.sepc = s.hart.ctx.pc ∧ t.hart.traps = r)

/-- ACTIVATE, DRAIN, RESET and RELEASE end in the state of the table, a freeze writes one image and a thaw restores it
(R308, R326, R328, R329, R330, R341, R342, R344, R345, R347, R368, R391). That an image keeps its contents as data
beside its header and records, when a freeze finds its partitions quiet, that it waits for a pod key, that a freeze is
tried again whole while an event finds its queue full, and which rows of a drain begin are the model's reading (log
entries 47, 79, 82, 84). -/
def Obligations.PartitionCommands : Prop :=
  ∀ s : State, MemoriesWf s → Apart s →
    (∀ p,
      let word7 := fun t : State => t.dev8 (pcaWord p 7)
      let ended := fun (t : State) (st : Nat) => t.partState p = st ∧ bits (word7 t) 63 62 = 0 ∧
        bits (word7 t) 31 0 = (bits (word7 s) 31 0 + 1) % 2 ^ 32 ∧ (∀ c ∈ t.commands, c.part ≠ p) ∧
        ∀ l, s.storage l ∉ ((Loc.dev (pcaWord p 7)).run 8).map s.storage → t.byteAt l = s.byteAt l
      let running := fun t : State => (∀ q < 4, bit (t.quad q).parthalt p = false) ∧
        (p < 16 → t.rootsOf p = (s.dev8 (pcaWord p 1), s.dev8 (pcaWord p 2)))
      (s.dev8 (pcaWord p 4) = 0 → s.commandRuns p 1 = true → ∃ t, exec (.activate p) s = .next t ∧ ended t 1 ∧ running t ∧
        ∀ cid ∈ s.coresOf p, t.core cid = (s.core cid).resetKept cid ∧ ∀ h, t.hartOf (.hart cid h) = Hart.reset (.hart cid h)) ∧
      (s.dev8 (pcaWord p 4) = 0 → s.commandRuns p 3 = true → ∃ t, exec (.resetPartition p) s = .next t ∧ ended t 1 ∧ running t ∧
        t.hart = s.hart ∧ t.cores = s.cores) ∧
      (s.dev8 (pcaWord p 4) = 0 → s.commandRuns p 4 = true → ∃ t, exec (.release p) s = .next t ∧ ended t 0 ∧
        t.hart = s.hart ∧ t.cores = s.cores ∧ ∀ e ∈ t.frozenBy, e.1 ≠ p) ∧
      (∀ c, s.commands.find? (fun c => c.part == p && c.cmd == 2) = some c → c.counts = [] →
        let waits := s.leaseMoving p = true ∨ ∃ f ∈ s.freezing, bit f.mask p = true
        (waits → exec (.drain p) s = .next (s.retry (.drain p))) ∧
        (¬ waits → s.partState p ≠ 1 →
          exec (.drain p) s = .next (({ s with commands := s.commands.filter (·.part != p) } : State).endCommand p true)) ∧
        (¬ waits → s.partState p = 1 → p < 16 → ∃ t, exec (.drain p) s = .next t ∧ t.partState p = 2 ∧
          (∀ q < 4, bit (t.quad q).parthalt p = true) ∧ Turn.event (.drain p) ∈ t.agenda ∧
          (∃ d ∈ t.commands, d.part = p ∧ d.cmd = 2 ∧ d.counts.length = 4 ∧ d.counts.getD 0 0 = s.gangs.countP (·.part == p) ∧
            d.counts.getD 1 0 = ((s.coresOf p).map fun c => (s.core c).coros.length).sum) ∧
          (∀ k ∈ t.pushes, k.part = p → k.started = true) ∧ (∀ f ∈ t.feHeld, ∀ cid ∈ s.coresOf p, ∀ g n d, f.who ≠ .coro cid g n d) ∧
          ∀ cid ∈ s.coresOf p, (t.core cid).coros = [] ∧ (t.core cid).inbox = [] ∧ (t.core cid).asyncs = [] ∧
            (t.core cid).spad = (s.core cid).spad ∧ ∀ h, t.hartOf (.hart cid h) = Hart.reset (.hart cid h))) ∧
      (∀ c, s.commands.find? (fun c => c.part == p && c.cmd == 2) = some c → c.counts ≠ [] → p < 16 → s.feHeld = [] →
        (∀ c ∈ s.copies, c.cid ∉ s.coresOf p) → (∀ k ∈ s.pushes, k.part ≠ p) → s.loopsBack p = false →
        (∀ k ∈ s.pageins, k.part = p → k.frame = none) → (∀ q < 4, (s.quad q).events.length < Config.maxEvents) →
          ∃ u : State, exec (.drain p) s = .next (u.commandDone p) ∧ u.partState p = 3 ∧
            (∀ g ∈ u.gangs, g.part ≠ p) ∧ (∀ g ∈ u.grids, g.part ≠ p) ∧ (∀ r ∈ u.fabric.sent, r.cid ∈ s.coresOf p → r.cont = .wake) ∧
            ∀ cid ∈ s.coresOf p, (u.core cid).coros = [] ∧ (u.core cid).inbox = [] ∧ (u.core cid).asyncs = [] ∧
              (∀ o, u.byteAt (.spad cid o) = 0 ∧ u.fullAt (.spad cid o) = true) ∧
              ∀ h, u.hartOf (.hart cid h) = Hart.reset (.hart cid h)) ∧
      (s.commandRuns p 1 = false → exec (.activate p) s = .next s) ∧ (s.commandRuns p 2 = false → exec (.drain p) s = .next s) ∧
      (s.commandRuns p 3 = false → exec (.resetPartition p) s = .next s) ∧
      (s.commandRuns p 4 = false → exec (.release p) s = .next s)) ∧
    (s.eft.booted = false → ∀ mask image, ∀ i ∈ [Instr.freeze mask image, .thaw image true], ∃ t, exec i s = .next t ∧
      t.hart = s.hart ∧ SameBytes s t ∧ t.fabric.out = s.fabric.out ++ [.managementNack]) ∧
    (s.eft.booted = true → ∀ mask image,
      (s.freezing.find? (fun f => f.image == image) = none →
        let blocked := ∃ p ∈ maskParts mask, s.partState p = 2 ∨ s.leaseMoving p = true ∨ ∃ c ∈ s.commands, c.part = p
        let ps := (maskParts mask).filter fun p => s.partState p == 1
        (blocked → exec (.freeze mask image) s = .next (s.retry (.freeze mask image))) ∧
        (¬ blocked → ps ≠ [] → (∃ q < 4, Config.maxEvents ≤ (s.quad q).events.length) →
          exec (.freeze mask image) s = .next (s.retry (.freeze mask image))) ∧
        (¬ blocked → ps ≠ [] → (∀ q < 4, (s.quad q).events.length < Config.maxEvents) → ∃ t f, exec (.freeze mask image) s = .next t ∧ t.hart = s.hart ∧ t.freezing = s.freezing ++ [f] ∧
          f.image = image ∧ f.mask = partsMask ps ∧ (∀ e ∈ f.queues, t.slotOf e.quad e.qsb = none) ∧
          Turn.event (.freeze mask image) ∈ t.agenda ∧ ∀ q < 4,
            { code := 8, arg := partsMask ps, arg2 := 0 } ∈ (t.quad q).events)) ∧
      (∀ f, s.freezing.find? (fun f => f.image == image) = some f →
        let ps := maskParts f.mask
        let cs := ps.flatMap s.coresOf
        (∀ c ∈ cs, (s.core c).coros = [] ∧ ∀ h < 8, (s.hartOf (.hart c h)).level = .user ∧ (s.hartOf (.hart c h)).occ = none) →
        s.frozenStill cs = true → (∀ q < 4, (s.quad q).events.length < Config.maxEvents) →
        (s.eft.podKey = none → ∃ t, exec (.freeze mask image) s = .next t ∧ t.hart = s.hart ∧ SameBytes s t ∧ t.images = s.images ∧
          t.freezing = s.freezing ∧ Turn.event (.freeze mask image) ∈ t.agenda) ∧
        (s.eft.podKey.isSome = true → (∀ w ∈ s.fabric.waits, s.unitOwnerOf cs w.who = false) →
        ∃ t, exec (.freeze mask image) s = .next t ∧ t.hart = s.hart ∧ t.freezing = s.freezing.erase f ∧
          (∃ img ∈ t.images, img.addr = image ∧ img.eid = s.fabric.eid ∧ img.key = s.eft.podKey ∧
            img.roots = ps.map (fun p => (p, s.rootsOf p)) ∧ img.cores = cs.map (fun c => (c, s.core c)) ∧
            img.cids = cs.map (fun c => (s.partOf c, c, (s.core c).kc)) ∧ img.gangs = s.gangs.filter fun g => ps.contains g.part) ∧
          (∀ p ∈ ps, t.partState p = 4 ∧ (p, image) ∈ t.frozenBy) ∧ (∀ g ∈ t.gangs, g.part ∉ ps) ∧
          (∀ c ∈ cs, (t.core c).coros = [] ∧ (t.core c).inbox = []) ∧
          ∀ q < 4, { code := 9, arg := partsMask ps, arg2 := flag (!f.cancelled.isEmpty) } ∈ (t.quad q).events))) ∧
    (s.eft.booted = true → ∀ image, exec (.thaw image false) s = .next s) ∧
    (∀ image img key, Sound s → s.images.find? (fun g => g.addr == image) = some img → s.eft.booted = true → img.key = some key →
      s.eft.podKey = some key → img.eid = s.fabric.eid → (∀ r ∈ img.roots, s.thawFits img r.1 = true) → (img.roots.map (·.1)).Nodup →
      img.queues = [] → img.feHeld = [] → s.feHeld = [] → (∀ q < 4, (s.quad q).events.length < Config.maxEvents) →
      (s.sealHolds img = false → exec (.thaw image true) s = .next s) ∧ (s.sealHolds img = true →
      ∃ t, exec (.thaw image true) s = .next t ∧ t.hart = s.hart ∧
        (∀ r ∈ img.roots, (r.1 < 16 → t.rootsOf r.1 = r.2) ∧ ∀ e ∈ t.frozenBy, e.1 ≠ r.1) ∧
        ((∀ c ∈ img.cids, ∃ e ∈ img.cores, e.1 = c.2.1 ∧ (∀ e2 ∈ img.cores, e2.1 = e.1 → e2 = e) ∧
          (s.onCore e.1 fun k => k.thawed e.2).overFull e.1 = false) → ∀ r ∈ img.roots, r.1 < 16 → t.partState r.1 = 1) ∧
        (∀ g ∈ img.gangs, (g.part, g.gid) ∉ img.cancelled → g ∈ t.gangs) ∧
        (∀ e ∈ img.cores, (∀ e2 ∈ img.cores, e2.1 = e.1 → e2 = e) → (t.core e.1).spad = e.2.spad ∧ (t.core e.1).inbox = e.2.inbox) ∧
        ∀ q < 4, { code := 0x0A, arg := partsMask (img.roots.map (·.1)), arg2 := 0 } ∈ (t.quad q).events))

/-- A turn serves one queue and completes a pass, WAITs end on their token, watchdog and timer post events, a gang exit
frees and counts (R42, R267, R309, R312, R318, R320, R322, R326, R327, R346). What a WAIT does at a wake whose word is
not initialised, what becomes of full/empty operations held on the allocation of a gang that exits, that a launch makes
its coroutines in one step, and that a turn whose event finds the queue full stays at its list are the model's reading
(log entries 20, 34, 35, 82). -/
def Obligations.LaunchEvents : Prop :=
  ∀ s : State,
    (∀ q place,
      ((s.quad q).run = false → ∃ t, exec (.walkerTurn q place) s = .next t ∧ t.hart = s.hart ∧
        t.gangs = s.gangs ∧ (t.quad q).slots = (s.quad q).slots ∧ (t.quad q).epoch = (s.quad q).epoch ∧
        (q < 4 → (t.quad q).idle = true ∧ (t.quad q).turn = none)) ∧
      ((s.quad q).run = true →
        let pass := fun k : Quad => { k with turn := none, epoch := (k.epoch + 1) % 2 ^ 64 }
        ((∀ p : Fin 8, (s.quad q).rlhead[p] = 0) → exec (.walkerTurn q place) s = .next (s.onQuad q pass)) ∧
        (∀ (p : Fin 8) (a : Nat) (s2 u : State), (s.quad q).turn = none → (∀ j : Fin 8, j ≠ p → (s.quad q).rlhead[j] = 0) →
          s.runList q p = ([a], s2, false) →
          (s2.tend q a).takePacket q a place = .started u → (∀ j : Fin 8, j ≠ p → (u.quad q).rlhead[j] = 0) →
          exec (.walkerTurn q place) s =
            .next ((u.onQuad q fun k => { k with served := k.served.set p.val a p.isLt }).onQuad q pass)) ∧
        (∀ (p : Fin 8) (l : List Nat) (s2 : State), (s.quad q).turn = none → (∀ j : Fin 8, p < j → (s.quad q).rlhead[j] = 0) →
          s.runList q p = (l, s2, true) →
          exec (.walkerTurn q place) s = .next (s2.onQuad q fun k => { k with turn := some (p.val, false) })))) ∧
    (∀ q n (e : Slot) l, (s.quad q).slots = [e] → bits e.qctl.toNat 56 54 = 2 → tokenGran e.ftoken = n → tokenEp e.ftoken = s.fabric.eid →
      s.granSpot (s.rootsOf (bits (s.qword q e.qsb 8) 50 47)).1 true false n = .ok l →
      (s.syncV l = true → signalledBy (s.syncGen l) e.ftoken = true →
        exec (.waitSignalled q n) s = .next (s.consume q e.qsb) ∧
          (s.consume q e.qsb).slotOf q e.qsb =
            some { e with rdidx := e.rdidx + 1, qctl := word (withState e.qctl.toNat 1), ftoken := 0 }) ∧
      (s.syncV l = true → signalledBy (s.syncGen l) e.ftoken = false →
        exec (.waitSignalled q n) s = .next (s.addWaiter { gran := n, loc := l, who := .launch q })) ∧
      (s.syncV l = false → (s.quad q).events.length < Config.maxEvents → ∃ t, exec (.waitSignalled q n) s = .next t ∧ t.hart = s.hart ∧
        t.slotOf q e.qsb = none ∧ (t.quad q).events = (s.quad q).events ++ [{ code := 3, arg := e.qsb, arg2 := e.rdidx }])) ∧
    (∀ q n (e : Slot) tr, (s.quad q).slots = [e] → bits e.qctl.toNat 56 54 = 2 → tokenGran e.ftoken = n → tokenEp e.ftoken = s.fabric.eid →
      s.granSpot (s.rootsOf (bits (s.qword q e.qsb 8) 50 47)).1 true false n = .error tr → tr.cause ≠ .addrHole →
      (s.quad q).events.length < Config.maxEvents → ∃ t, exec (.waitSignalled q n) s = .next t ∧ t.hart = s.hart ∧
        t.slotOf q e.qsb = none ∧ (t.quad q).events = (s.quad q).events ++ [{ code := 2, arg := e.qsb, arg2 := tr.val.toNat }]) ∧
    (∀ q n e g r, (s.quad q).slots[n]? = some e → s.running q e.qsb = g :: r →
      let limit := s.qword q e.qsb 0x30
      (limit ≠ 0 → limit ≤ e.wdcount → s.queueState q e.qsb ≠ 4 → (s.quad q).events.length < Config.maxEvents →
        ∃ t, exec (.watchdog q n) s = .next t ∧ t.hart = s.hart ∧ t.cores = s.cores ∧ t.slotOf q e.qsb = none ∧
          (t.quad q).events = (s.quad q).events ++ [{ code := 1, arg := e.qsb, arg2 := g.gid }]) ∧
      (limit = 0 ∨ e.wdcount < limit ∨ s.queueState q e.qsb = 4 → exec (.watchdog q n) s = .next s)) ∧
    (∀ q < 4,
      let k := s.quad q
      let due := k.armed = true ∧ k.ftcmp ≠ 0 ∧ k.ftcmp.toNat ≤ k.ftimer
      (due → k.events.length < Config.maxEvents → exec (.timer q) s =
        .next (s.onQuad q fun k => { k with armed := false, events := k.events ++ [{ code := 7, arg := 0, arg2 := 0 }] })) ∧
      (¬ due → exec (.timer q) s = .next s)) ∧
    (∀ gid g, s.gangs.find? (fun g => g.gid == gid && g.ending) = some g →
      let s1 := (s.dropPushes fun p => p.gid == g.gid && p.part == g.part && !p.started && !p.begun).dropHeld g
      (s1.exitHeld g = true → exec (.gangExit gid) s = .next s1) ∧
      (s1.exitHeld g = false → s.feHeld = [] → g.donek = 0 → ∃ t, exec (.gangExit gid) s = .next t ∧ t.hart = s.hart ∧
        (∀ k ∈ t.gangs, ¬ (k.gid = g.gid ∧ k.part = g.part)) ∧ (∀ k ∈ t.grids, ¬ (k.gid = g.gid ∧ k.part = g.part)) ∧
        (∀ c ∈ g.cores, ∀ o < g.spad * 65536, t.byteAt (.spad c o) = 0 ∧ t.fullAt (.spad c o) = true) ∧
        ∀ e, s.slotOf g.quad g.qsb = some e →
          t.slotOf g.quad g.qsb = some { e with done := (e.done + 1) % 2 ^ 64, wdcount := 0 })) ∧
    (∀ gid, s.gangs.find? (fun g => g.gid == gid && g.ending) = none → exec (.gangExit gid) s = .next s)

/-- Every step answers a next state: nothing stops the module (R11, R297, R298). -/
def Obligations.NoStepStops : Prop :=
  ∀ s : State, ∃ t, Runs s t

/-- After reset every memory is in canonical form, no image is kept, and firmware runs at firmware level (model choices:
log entries 1, 2, 7) (R294, R324, R391). -/
def Obligations.ResetSound : Prop :=
  Sound State.reset ∧ State.reset.images = [] ∧ State.reset.hart.ctx.pc = 0 ∧ State.reset.focus = .fw 0 ∧ State.reset.hart.level = .firmware ∧ State.reset.hart.run = .running ∧
    State.reset.hart.sstatus = word (3 * 2 ^ 52) ∧ State.reset.hart.ctx.vn = 2 ∧
    (∀ a : Nat, 0x200000 ≤ a → a < Config.firmwareRoot 0 ∨ Config.firmwareRoot 0 + 0x5100 ≤ a → State.reset.byteAt (.dev a) = 0) ∧
    State.reset.hart.ctx.x = Vector.replicate 32 0 ∧ ∀ n < 153, State.reset.eft.sensors.lookup n = some (if n = 150 then 40 else 0)

/-- Every step keeps every memory in canonical form, whatever instruction or event moves (R3, R16, R85, R360). -/
def Obligations.MemoriesStayCanonical : Prop :=
  ∀ s t : State, Sound s → Runs s t → Sound t

/-- Decoding the words of any well-formed instruction gives that instruction back, for every S-word and every E-word
(R134, R137, R138, R143, R148). -/
def Obligations.DecodeEncodeAgree : Prop :=
  ∀ (i : Instr) (n w : Nat), WellFormed i → encode i = some (n, w) →
    decodeTableWord n w = some i ∧ (n = 32 ∨ n = 64) ∧ w < 2 ^ n

/-- A word that decodes is the encoding of what it decodes to: no bit of a word is dropped (R134, R137, R138, R143,
R148). -/
def Obligations.EncodeDecodeAgree : Prop :=
  (∀ (w : Nat) (i : Instr), w < 2 ^ 32 → decodeS w = some i → encode i = some (32, w)) ∧
  (∀ (w : Nat) (i : Instr), w < 2 ^ 64 → decodeE w = some i → encode i = some (64, w))

/-- Words written out from the encodings of the spec decode to the instructions they stand for (R137, R139, R143, R148).
-/
def Obligations.DecodeWords : Prop :=
  decodeTableWord 32 0x04500064 = some (.addi 5 0 100) ∧
  decodeTableWord 32 0x30110004 = some (.beq 1 2 4) ∧
  decodeTableWord 32 0x4C418003 = some (.loopst 4 3 3) ∧
  decodeTableWord 32 0x50500010 = some (.csrr 5 0x10) ∧
  decodeTableWord 32 0x58000002 = some .eret ∧
  decodeTableWord 32 0x58000003 = some .wfm ∧
  decodeTableWord 32 0x5A308BC0 = some (.fadd 3 1 2 7 true) ∧
  decodeTableWord 32 0x7E000018 = some (.fenceRel 3) ∧
  decodeTableWord 64 0x8004000000F00000 =
    some (.vld { vd := 1, va := 0, vb := 0, vc := 0, ca := false, cb := false, cc := false, k := 0, pol := false, sh := false,
                 ty := 15, rm := 0, sg := 0, xs := false, fn := 0 }) ∧
  decodeTableWord 32 0x02308800 = some (.add 3 1 2) ∧
  decodeTableWord 32 0x1C508008 = some (.ldD 5 1 8) ∧
  decodeTableWord 32 0x26507FFF = some (.stD 5 0 0x7FFF) ∧
  decodeTableWord 32 0x76428000 = some (.sgen 4 5) ∧
  decodeTableWord 32 0x74402400 = some (.arrive 4 9) ∧
  decodeTableWord 32 0x7C531C10 = some (.amo 5 6 7 0 0 true 0) ∧
  decodeTableWord 64 0x100C10808A1E0000 =
    some (.vadd
      { vd := 3, va := 1, vb := 2, vc := 0, ca := true, cb := false, cc := false, k := 2, pol := true, sh := false,
        ty := 1, rm := 7, sg := 0, xs := false, fn := 0 }) ∧
  decodeTableWord 64 0x450C200004000000 =
    some (.ksif
      { vd := 3, va := 2, vb := 0, vc := 0, ca := false, cb := false, cc := false, k := 1, pol := false, sh := false,
        ty := 0, rm := 0, sg := 0, xs := false, fn := 0 }) ∧
  decodeTableWord 64 0x6814100000A00001 =
    some (.vredsum
      { vd := 5, va := 1, vb := 0, vc := 0, ca := false, cb := false, cc := false, k := 0, pol := false, sh := false,
        ty := 10, rm := 0, sg := 0, xs := false, fn := 1 }) ∧
  decodeTableWord 64 0x711820C0006E0001 =
    some (.vscale
      { vd := 6, va := 2, vb := 3, vc := 0, ca := false, cb := false, cc := false, k := 0, pol := false, sh := false,
        ty := 6, rm := 7, sg := 0, xs := false, fn := 1 }) ∧
  decodeTableWord 64 0x810801400C102802 =
    some (.vlds
      { vd := 2, va := 0, vb := 5, vc := 0, ca := false, cb := false, cc := false, k := 3, pol := false, sh := false,
        ty := 1, rm := 0, sg := 0, xs := true, fn := 2050 }) ∧
  decodeTableWord 64 0xA3040140003E2828 =
    some (.opa
      { vd := 1, va := 0, vb := 5, vc := 0, ca := false, cb := false, cc := false, k := 0, pol := false, sh := false,
        ty := 3, rm := 7, sg := 0, xs := true, fn := 2088 }) ∧
  decodeTableWord 64 0xFF00000000000000 = none ∧ decodeTableWord 32 0xFE000000 = none

/-- A step is exec of the decoded instruction, in the state whose clocks and turn have moved on (R134, R135, R136, R138,
R141, R159, R183, R397). What an issue costs and a cluster without a budget are the model's choice (log entry 83), and
so is the order of turns (log entry 3). -/
def Obligations.StepRunsDecoded : Prop :=
  ∀ (s : State) (r : List Turn), s.eft.clocks = true →
    let t := ({ s with agenda := r } : State).clock
    (s.agenda = [.front s.focus] ++ r → t.due = none → t.hart.run = .running → t.hart.blocks = [] →
      let runs := fun bs : List Byte =>
        (∀ i, decodeBytes bs = some i → issuesCopy i = false → step s = exec i t) ∧
        (∀ i, decodeBytes bs = some i → issuesCopy i = true → (∀ u, t.spend = some u → step s = exec i u) ∧
          (t.spend = none → step s = .next t)) ∧
        (decodeBytes bs = none → step s = exec (.unallocatedOpcode (.sword (BitVec.ofNat 32 (ofBytes bs)))) t)
      (∀ w, t.aheadWord 1 t.hart.ctx.pc.toNat = some w → w < 2 ^ 32 → runs (bytesOf 4 w)) ∧
      (t.aheadWord 1 t.hart.ctx.pc.toNat = none →
        (∀ l, t.fetchSpot t.view 1 t.hart.ctx.pc.toNat = .ok l → runs ((l.run 4).map t.byteAt)) ∧
        (∀ f, t.fetchSpot t.view 1 t.hart.ctx.pc.toNat = .error f → step s = exec (.fetchFault f) t))) ∧
    (∀ b w i, s.agenda = [.lanes s.focus] ++ r → t.due = none → t.hart.run = .running → t.hart.blocks.head? = some b →
      b.words[b.idx]? = some w → b.idx < 63 → decodeE w.toNat = some i → (∀ u, t.spend = some u → step s = exec i u) ∧ (t.spend = none → step s = .next t)) ∧
    (∀ q, s.focus = .fw q → t.spend = some t) ∧
    (∀ cid h, s.focus = .hart cid h → (s.eft.budgets.lookup (cid / 8) = none → t.spend = some t) ∧
      (s.eft.budgets.lookup (cid / 8) = some 0 → t.spend = none) ∧
      ∀ n, s.eft.budgets.lookup (cid / 8) = some (n + 1) →
        t.spend = some { t with eft := { t.eft with budgets := assocSet t.eft.budgets (cid / 8) n } }) ∧
    (∀ i, s.agenda = [.event i] ++ r → step s = exec i t) ∧
    t.hart.ctx = s.hart.ctx ∧ t.hart.level = s.hart.level ∧ t.hart.sstatus = s.hart.sstatus ∧ t.hart.blocks = s.hart.blocks ∧
    t.mem = s.mem ∧ t.host = s.host ∧ t.focus = s.focus ∧ (∀ l, t.byteAt l = s.byteAt l)
end

