-- ==== Sys2Proof/Laws/Memory.lean ====
section
/-! SUPPORT. Memory operations keep the canonical form, and a byte read back is the byte written (R16, R85, R333, R360). -/

namespace Sys2Proof.Laws

open Sys2Proof Sys2Proof.Machine Sys2Proof.Safety

/-! ### Lists of cells -/

theorem cellsWf_cons {d : Nat → Byte} {lo : Option Nat} {x : Nat} {b : Byte} {r : List Host.Cell} :
    cellsWf d lo ((x, b) :: r) = true ↔ (∀ y, lo = some y → y < x) ∧ b ≠ d x ∧ cellsWf d (some x) r = true := by
  cases lo <;> simp [cellsWf, and_assoc]

theorem cellsWf_weaken {d : Nat → Byte} {lo : Option Nat} {x : Nat} {r : List Host.Cell} (h : cellsWf d (some x) r = true)
    (hl : ∀ y, lo = some y → y < x) : cellsWf d lo r = true := by
  cases r with
  | nil => rfl
  | cons c r =>
    obtain ⟨hx, hb, hr⟩ := cellsWf_cons.mp h
    exact cellsWf_cons.mpr ⟨fun y hy => Nat.lt_trans (hl y hy) (hx x rfl), hb, hr⟩

theorem cellsWf_erase {d : Nat → Byte} {l : List Host.Cell} (a : Nat) {lo : Option Nat} (h : cellsWf d lo l = true) :
    cellsWf d lo (cellErase l a) = true := by
  induction l generalizing lo with
  | nil => rfl
  | cons c r ih =>
    obtain ⟨hx, hb, hr⟩ := cellsWf_cons.mp h
    simp only [cellErase]
    split
    · exact cellsWf_weaken hr hx
    · split
      · exact h
      · exact cellsWf_cons.mpr ⟨hx, hb, ih hr⟩

theorem cellsWf_insert {d : Nat → Byte} {l : List Host.Cell} {a : Nat} {v : Byte} {lo : Option Nat} (h : cellsWf d lo l = true)
    (hl : ∀ y, lo = some y → y < a) (hv : v ≠ d a) : cellsWf d lo (cellInsert l a v) = true := by
  induction l generalizing lo with
  | nil => exact cellsWf_cons.mpr ⟨hl, hv, rfl⟩
  | cons c r ih =>
    obtain ⟨x, b⟩ := c
    obtain ⟨hx, hb, hr⟩ := cellsWf_cons.mp h
    simp only [cellInsert]
    split
    · subst a; exact cellsWf_cons.mpr ⟨hx, hv, hr⟩
    · split
      · rename_i ha
        exact cellsWf_cons.mpr ⟨hl, hv, cellsWf_cons.mpr ⟨fun y hy => Option.some.inj hy ▸ ha, hb, hr⟩⟩
      · exact cellsWf_cons.mpr ⟨hx, hb, ih hr fun y hy => by cases hy; omega⟩

theorem cellsWf_filter {d : Nat → Byte} {l : List Host.Cell} (p : Host.Cell → Bool) {lo : Option Nat} (h : cellsWf d lo l = true) :
    cellsWf d lo (l.filter p) = true := by
  induction l generalizing lo with
  | nil => rfl
  | cons c r ih =>
    obtain ⟨hx, hb, hr⟩ := cellsWf_cons.mp h
    simp only [List.filter]
    split
    · exact cellsWf_cons.mpr ⟨hx, hb, ih hr⟩
    · exact ih (cellsWf_weaken hr hx)

theorem cellAt_below {d : Nat → Byte} {l : List Host.Cell} {a x : Nat} (h : cellsWf d (some x) l = true) (ha : a ≤ x) :
    cellAt l a = none := by
  cases l with
  | nil => rfl
  | cons c r =>
    have hx := (cellsWf_cons.mp h).1 x rfl
    simp only [cellAt]
    rw [if_neg (by omega), if_pos (by omega)]

theorem cellAt_insert_self (l : List Host.Cell) (a : Nat) (v : Byte) : cellAt (cellInsert l a v) a = some v := by
  induction l with
  | nil => simp [cellInsert, cellAt]
  | cons c r ih =>
    simp only [cellInsert]
    split
    · simp [cellAt]
    · split
      · simp [cellAt]
      · rename_i h1 h2; simp only [cellAt]; rw [if_neg h1, if_neg h2, ih]

theorem cellAt_insert_ne {l : List Host.Cell} {a e : Nat} (v : Byte) (h : e ≠ a) : cellAt (cellInsert l a v) e = cellAt l e := by
  induction l with
  | nil => simp only [cellInsert, cellAt]; split <;> first | omega | simp
  | cons c r ih =>
    simp only [cellInsert]
    split
    · subst a; simp only [cellAt]; rw [if_neg (Ne.symm h), if_neg (Ne.symm h)]
    · split
      · simp only [cellAt]
        rw [if_neg (Ne.symm h)]
        split
        · rw [if_neg (by omega), if_pos (by omega)]
        · rfl
      · simp only [cellAt, ih]

theorem cellAt_erase {d : Nat → Byte} {l : List Host.Cell} {lo : Option Nat} (h : cellsWf d lo l = true) (a e : Nat) :
    cellAt (cellErase l a) e = if e = a then none else cellAt l e := by
  induction l generalizing lo with
  | nil => simp [cellErase, cellAt]
  | cons c r ih =>
    obtain ⟨x, b⟩ := c
    obtain ⟨_, _, hr⟩ := cellsWf_cons.mp h
    simp only [cellErase]
    split
    · subst x
      split
      · subst e; exact cellAt_below hr (Nat.le_refl _)
      · simp only [cellAt]
        rw [if_neg (by omega)]
        split
        · exact cellAt_below hr (by omega)
        · rfl
    · split
      · split
        · subst e; simp only [cellAt]; rw [if_neg ‹_›, if_pos ‹_›]
        · rfl
      · simp only [cellAt, ih hr]
        split
        · rw [if_neg (by omega)]
        · split
          · rw [if_neg (by omega)]
          · rfl

/-! ### Lists of words -/

theorem rising_cons {lo : Option Nat} {x : Nat} {r : List Nat} :
    risingFrom lo (x :: r) = true ↔ (∀ y, lo = some y → y < x) ∧ risingFrom (some x) r = true := by
  cases lo <;> simp [risingFrom]

theorem rising_weaken {lo : Option Nat} {x : Nat} {r : List Nat} (h : risingFrom (some x) r = true) (hl : ∀ y, lo = some y → y < x) :
    risingFrom lo r = true := by
  cases r with
  | nil => rfl
  | cons c r =>
    obtain ⟨hx, hr⟩ := rising_cons.mp h
    exact rising_cons.mpr ⟨fun y hy => Nat.lt_trans (hl y hy) (hx x rfl), hr⟩

theorem rising_erase {l : List Nat} (a : Nat) {lo : Option Nat} (h : risingFrom lo l = true) : risingFrom lo (listErase l a) = true := by
  induction l generalizing lo with
  | nil => rfl
  | cons x r ih =>
    obtain ⟨hx, hr⟩ := rising_cons.mp h
    simp only [listErase]
    split
    · exact ih (rising_weaken hr hx)
    · exact rising_cons.mpr ⟨hx, ih hr⟩

theorem rising_insert {l : List Nat} {a : Nat} {lo : Option Nat} (h : risingFrom lo l = true) (hl : ∀ y, lo = some y → y < a) :
    risingFrom lo (sortedInsert l a) = true := by
  induction l generalizing lo with
  | nil => exact rising_cons.mpr ⟨hl, rfl⟩
  | cons x r ih =>
    obtain ⟨hx, hr⟩ := rising_cons.mp h
    simp only [sortedInsert]
    split
    · rename_i ha
      exact rising_cons.mpr ⟨hl, rising_cons.mpr ⟨fun y hy => Option.some.inj hy ▸ ha, hr⟩⟩
    · split
      · exact h
      · exact rising_cons.mpr ⟨hx, ih hr fun y hy => by cases hy; omega⟩

theorem rising_filter {l : List Nat} (p : Nat → Bool) {lo : Option Nat} (h : risingFrom lo l = true) : risingFrom lo (l.filter p) = true := by
  induction l generalizing lo with
  | nil => rfl
  | cons x r ih =>
    obtain ⟨hx, hr⟩ := rising_cons.mp h
    simp only [List.filter]
    split
    · exact rising_cons.mpr ⟨hx, ih hr⟩
    · exact ih (rising_weaken hr hx)

/-! ### One memory -/

theorem mem_wf_iff {d : Nat → Byte} {m : Mem} :
    m.wf d = true ↔ cellsWf d none m.cells = true ∧ risingFrom none m.empty = true ∧ risingFrom none m.poison = true := by
  simp [Mem.wf, and_assoc]

theorem fresh_wf (d : Nat → Byte) : Mem.fresh.wf d = true := rfl

theorem setByte_wf {d : Nat → Byte} {m : Mem} (h : m.wf d = true) (a : Nat) (v : Byte) : (m.setByte d a v).wf d = true := by
  obtain ⟨hc, he, hp⟩ := mem_wf_iff.mp h
  refine mem_wf_iff.mpr ⟨?_, he, hp⟩
  simp only [Mem.setByte]
  split
  · exact cellsWf_erase a hc
  · exact cellsWf_insert hc (fun _ hy => by cases hy) ‹_›

theorem setFull_wf {d : Nat → Byte} {m : Mem} (h : m.wf d = true) (w : Nat) (f : Bool) : (m.setFull w f).wf d = true := by
  obtain ⟨hc, he, hp⟩ := mem_wf_iff.mp h
  refine mem_wf_iff.mpr ⟨hc, ?_, hp⟩
  cases f
  · exact rising_insert (rising_erase w he) (fun _ hy => by cases hy)
  · exact rising_erase w he

theorem setPoison_wf {d : Nat → Byte} {m : Mem} (h : m.wf d = true) (w : Nat) (p : Bool) : (m.setPoison w p).wf d = true := by
  obtain ⟨hc, he, hp⟩ := mem_wf_iff.mp h
  refine mem_wf_iff.mpr ⟨hc, he, ?_⟩
  cases p
  · exact rising_erase w hp
  · exact rising_insert (rising_erase w hp) (fun _ hy => by cases hy)

theorem clearBelow_wf {d : Nat → Byte} {m : Mem} (h : m.wf d = true) (n : Nat) : (m.clearBelow n).wf d = true := by
  obtain ⟨hc, he, hp⟩ := mem_wf_iff.mp h
  exact mem_wf_iff.mpr ⟨cellsWf_filter _ hc, rising_filter _ he, rising_filter _ hp⟩

theorem restrict_wf {d : Nat → Byte} {m : Mem} (h : m.wf d = true) (rs : List (Nat × Nat)) (within : Bool) :
    (m.restrict rs within).wf d = true := by
  obtain ⟨hc, he, hp⟩ := mem_wf_iff.mp h
  exact mem_wf_iff.mpr ⟨cellsWf_filter _ hc, rising_filter _ he, rising_filter _ hp⟩

theorem cells_foldl_wf {d : Nat → Byte} {l : List Host.Cell} {lo : Option Nat} (hl : cellsWf d lo l = true) {out : List Host.Cell}
    (h : cellsWf d none out = true) : cellsWf d none (l.foldl (fun o c => cellInsert o c.1 c.2) out) = true := by
  induction l generalizing lo out with
  | nil => exact h
  | cons c r ih =>
    obtain ⟨_, hb, hr⟩ := cellsWf_cons.mp hl
    exact ih hr (cellsWf_insert h (fun _ hy => by cases hy) hb)

theorem rising_foldl (l : List Nat) {out : List Nat} (h : risingFrom none out = true) : risingFrom none (l.foldl sortedInsert out) = true := by
  induction l generalizing out with
  | nil => exact h
  | cons x r ih => exact ih (rising_insert h (fun _ hy => by cases hy))

theorem restore_wf {d : Nat → Byte} {m pages : Mem} (h : m.wf d = true) (hg : pages.wf d = true) (rs : List (Nat × Nat)) :
    (m.restore rs pages).wf d = true := by
  obtain ⟨hc, he, hp⟩ := mem_wf_iff.mp (restrict_wf h rs false)
  exact mem_wf_iff.mpr ⟨cells_foldl_wf (mem_wf_iff.mp hg).1 hc, rising_foldl _ he, rising_foldl _ hp⟩

theorem byte_setByte {d : Nat → Byte} {m : Mem} (h : m.wf d = true) (a : Nat) (v : Byte) (e : Nat) :
    (m.setByte d a v).byte d e = if e = a then v else m.byte d e := by
  have hc := (mem_wf_iff.mp h).1
  simp only [Mem.byte, Mem.setByte]
  by_cases hv : v = d a
  · rw [if_pos hv, cellAt_erase hc]
    split
    · subst e; exact hv.symm
    · rfl
  · rw [if_neg hv]
    split
    · subst e; rw [cellAt_insert_self]; rfl
    · rw [cellAt_insert_ne v ‹_›]

/-! ### The memories of a state -/

theorem mem_assocSet {α β : Type} [BEq α] {l : List (α × β)} {a : α} {b : β} {p : α × β} (h : p ∈ assocSet l a b) :
    p.2 = b ∨ p ∈ l := by
  induction l with
  | nil => simp only [assocSet, List.mem_singleton] at h; exact .inl (h ▸ rfl)
  | cons c r ih =>
    simp only [assocSet] at h
    split at h
    · rcases List.mem_cons.mp h with rfl | h
      · exact .inl rfl
      · exact .inr (List.mem_cons_of_mem _ h)
    · rcases List.mem_cons.mp h with rfl | h
      · exact .inr (List.mem_cons_self ..)
      · exact (ih h).imp id (List.mem_cons_of_mem _)

theorem mem_of_lookup {α β : Type} [BEq α] {l : List (α × β)} {a : α} {b : β} (h : l.lookup a = some b) : ∃ x, (x, b) ∈ l := by
  induction l with
  | nil => cases h
  | cons c r ih =>
    rw [List.lookup_cons] at h
    split at h
    · cases h; exact ⟨c.1, List.mem_cons_self ..⟩
    · obtain ⟨x, hx⟩ := ih h; exact ⟨x, List.mem_cons_of_mem _ hx⟩

theorem core_wf {s : State} (h : MemoriesWf s) (cid : Nat) : (s.core cid).spad.wf zeroByte = true := by
  cases hl : s.cores.lookup cid with
  | none => rw [State.core, hl]; rfl
  | some c =>
    obtain ⟨x, hx⟩ := mem_of_lookup hl
    rw [State.core, hl]
    exact h.2.2 _ hx

theorem setCore_wf {s : State} (h : MemoriesWf s) (cid : Nat) {c : Core} (hc : c.spad.wf zeroByte = true) : MemoriesWf (s.setCore cid c) :=
  ⟨h.1, h.2.1, fun p hp => (mem_assocSet hp).elim (fun e => e ▸ hc) (h.2.2 p)⟩

/-- A change of one memory that keeps the canonical form keeps it in every memory. -/
theorem onMem_wf {s : State} (h : MemoriesWf s) (l : Loc) {f : (Nat → Byte) → Nat → Mem → Mem}
    (hf : ∀ d a m, m.wf d = true → (f d a m).wf d = true) : MemoriesWf (s.onMem l f) := by
  unfold State.onMem
  split
  · exact ⟨hf _ _ _ h.1, h.2⟩
  · exact ⟨h.1, hf _ _ _ h.2.1, h.2.2⟩
  · exact setCore_wf h _ (hf _ _ _ (core_wf h _))

theorem putByte_wf {s : State} (h : MemoriesWf s) (l : Loc) (v : Byte) : MemoriesWf (s.putByte l v) :=
  onMem_wf h l fun _ a _ hm => setByte_wf hm a v

theorem putFull_wf {s : State} (h : MemoriesWf s) (l : Loc) (f : Bool) : MemoriesWf (s.putFull l f) :=
  onMem_wf h l fun _ a _ hm => setFull_wf hm (a / 8) f

theorem putPoison_wf {s : State} (h : MemoriesWf s) (l : Loc) (p : Bool) : MemoriesWf (s.putPoison l p) :=
  onMem_wf h l fun _ a _ hm => setPoison_wf hm (a / 8) p

theorem putBytes_wf {s : State} (h : MemoriesWf s) (ls : List (Loc × Byte)) : MemoriesWf (s.putBytes ls) := by
  unfold State.putBytes
  induction ls generalizing s with
  | nil => exact h
  | cons p r ih => exact ih (putByte_wf h p.1 p.2)

theorem putNum_wf {s : State} (h : MemoriesWf s) (l : Loc) (n v : Nat) : MemoriesWf (s.putNum l n v) := putBytes_wf h _

theorem fillFrame_wf {s : State} (h : MemoriesWf s) (f n : Nat) : MemoriesWf (s.fillFrame f n) := by
  obtain ⟨hc, he, hp⟩ := mem_wf_iff.mp h.1
  exact ⟨mem_wf_iff.mpr ⟨hc, rising_filter _ he, hp⟩, h.2⟩

/-- After reset every memory lists nothing. -/
theorem reset_memories : MemoriesWf State.reset := ⟨rfl, rfl, fun _ h => nomatch h⟩

/-! ### Reading a byte after a write -/

theorem lookup_assocSet (l : List (Nat × Core)) (a : Nat) (b : Core) (e : Nat) :
    (assocSet l a b).lookup e = if e = a then some b else l.lookup e := by
  induction l with
  | nil => simp only [assocSet, List.lookup_cons, List.lookup_nil]; split <;> simp_all
  | cons c r ih =>
    obtain ⟨x, y⟩ := c
    simp only [assocSet]
    split
    · rename_i hx
      have hx : x = a := by simpa using hx
      subst x
      simp only [List.lookup_cons]
      by_cases he : e = a
      · simp [he]
      · simp [he, beq_eq_false_iff_ne.mpr he]
    · rename_i hx
      have hx : x ≠ a := by simpa using hx
      simp only [List.lookup_cons, ih]
      by_cases he : e = x
      · subst e; simp [hx]
      · simp [beq_eq_false_iff_ne.mpr he]

theorem core_setCore (s : State) (cid : Nat) (c : Core) (e : Nat) : (s.setCore cid c).core e = if e = cid then c else s.core e := by
  simp only [State.core, State.setCore, lookup_assocSet]
  split <;> rfl

/-- With no frame replaced every place is stored where it is. -/
theorem storage_fresh {s : State} (h : s.molt.remap = []) (l : Loc) : s.storage l = l := by
  cases l <;> simp [State.storage, h]

@[simp] theorem storage_host (s : State) (a : Nat) : s.storage (.host a) = .host a := rfl
@[simp] theorem storage_spad (s : State) (c o : Nat) : s.storage (.spad c o) = .spad c o := rfl

/-- No frame of the replacements is that of a device address: the place is stored where it is. -/
theorem storage_apart {s : State} {a : Nat} (h : s.molt.remap.lookup (a / 65536 * 65536) = none) : s.storage (.dev a) = .dev a := by
  simp only [State.storage]
  split
  · rfl
  · have : frameHome s.molt.remap s.molt.remap.length (a / 65536 * 65536) = a / 65536 * 65536 := by
      cases s.molt.remap.length <;> simp [frameHome, h]
    rw [this]; congr 1; omega

/-- A change of a memory leaves the replacements of frames. -/
@[simp] theorem onMem_molt (s : State) (l : Loc) (f : (Nat → Byte) → Nat → Mem → Mem) : (s.onMem l f).molt = s.molt := by
  unfold State.onMem; split <;> rfl

theorem storage_congr {s t : State} (h : t.molt = s.molt) (l : Loc) : t.storage l = s.storage l := by
  cases l <;> simp only [State.storage, h]

/-- The byte written reads back at every place that is stored with it, and every other byte reads as before. -/
theorem byteAt_putByte {s : State} (h : MemoriesWf s) (l : Loc) (v : Byte) (e : Loc) :
    (s.putByte l v).byteAt e = if s.storage e = s.storage l then v else s.byteAt e := by
  unfold State.byteAt
  rw [storage_congr (s := s) (t := s.putByte l v) (onMem_molt s l _)]
  unfold State.putByte State.onMem
  generalize s.storage l = l'
  generalize s.storage e = e'
  cases l' with
  | dev a => cases e' with
    | dev x => simpa using byte_setByte h.1 a v x
    | host x => simp
    | spad c o => simp [State.core]
  | host a => cases e' with
    | dev x => simp
    | host x => simpa using byte_setByte h.2.1 a v x
    | spad c o => simp [State.core]
  | spad k a => cases e' with
    | dev x => simp [State.onCore, State.setCore]
    | host x => simp [State.onCore, State.setCore]
    | spad c o =>
      simp only [State.onCore, core_setCore, Loc.spad.injEq]
      by_cases hc : c = k
      · subst c; simpa using byte_setByte (core_wf h k) a v o
      · simp [hc]

end Sys2Proof.Laws
end

