-- ==== Sys2Proof/Laws/State.lean ====
section
/-! SUPPORT. The small lemmas of the state: what an update leaves of each field, and what one register write does (R44, R134,
R159, R298, R300). -/

namespace Sys2Proof.Laws

open Sys2Proof Sys2Proof.Machine

/-! ### onFocus -/

@[simp] theorem onFocus_focus (s : State) (f : Hart → Hart) : (s.onFocus f).focus = s.focus := rfl
@[simp] theorem onFocus_hart (s : State) (f : Hart → Hart) : (s.onFocus f).hart = f s.hart := rfl
@[simp] theorem onFocus_harts (s : State) (f : Hart → Hart) : (s.onFocus f).harts = s.harts := rfl
@[simp] theorem onFocus_cores (s : State) (f : Hart → Hart) : (s.onFocus f).cores = s.cores := rfl
@[simp] theorem onFocus_quads (s : State) (f : Hart → Hart) : (s.onFocus f).quads = s.quads := rfl
@[simp] theorem onFocus_mem (s : State) (f : Hart → Hart) : (s.onFocus f).mem = s.mem := rfl
@[simp] theorem onFocus_host (s : State) (f : Hart → Hart) : (s.onFocus f).host = s.host := rfl
@[simp] theorem onFocus_hostUp (s : State) (f : Hart → Hart) : (s.onFocus f).hostUp = s.hostUp := rfl
@[simp] theorem onFocus_gangs (s : State) (f : Hart → Hart) : (s.onFocus f).gangs = s.gangs := rfl
@[simp] theorem onFocus_copies (s : State) (f : Hart → Hart) : (s.onFocus f).copies = s.copies := rfl
@[simp] theorem onFocus_pageins (s : State) (f : Hart → Hart) : (s.onFocus f).pageins = s.pageins := rfl
@[simp] theorem onFocus_heldContributions (s : State) (f : Hart → Hart) : (s.onFocus f).heldContributions = s.heldContributions := rfl
@[simp] theorem onFocus_waiters (s : State) (f : Hart → Hart) : (s.onFocus f).waiters = s.waiters := rfl
@[simp] theorem onFocus_feHeld (s : State) (f : Hart → Hart) : (s.onFocus f).feHeld = s.feHeld := rfl
@[simp] theorem onFocus_grids (s : State) (f : Hart → Hart) : (s.onFocus f).grids = s.grids := rfl
@[simp] theorem onFocus_pushes (s : State) (f : Hart → Hart) : (s.onFocus f).pushes = s.pushes := rfl
@[simp] theorem onFocus_roots (s : State) (f : Hart → Hart) : (s.onFocus f).roots = s.roots := rfl
@[simp] theorem onFocus_commands (s : State) (f : Hart → Hart) : (s.onFocus f).commands = s.commands := rfl
@[simp] theorem onFocus_fabric (s : State) (f : Hart → Hart) : (s.onFocus f).fabric = s.fabric := rfl
@[simp] theorem onFocus_molt (s : State) (f : Hart → Hart) : (s.onFocus f).molt = s.molt := rfl
@[simp] theorem onFocus_eft (s : State) (f : Hart → Hart) : (s.onFocus f).eft = s.eft := rfl
@[simp] theorem onFocus_images (s : State) (f : Hart → Hart) : (s.onFocus f).images = s.images := rfl
@[simp] theorem onFocus_freezing (s : State) (f : Hart → Hart) : (s.onFocus f).freezing = s.freezing := rfl
@[simp] theorem onFocus_frozenBy (s : State) (f : Hart → Hart) : (s.onFocus f).frozenBy = s.frozenBy := rfl
@[simp] theorem onFocus_hostWrites (s : State) (f : Hart → Hart) : (s.onFocus f).hostWrites = s.hostWrites := rfl
@[simp] theorem onFocus_agenda (s : State) (f : Hart → Hart) : (s.onFocus f).agenda = s.agenda := rfl
@[simp] theorem onFocus_tick (s : State) (f : Hart → Hart) : (s.onFocus f).tick = s.tick := rfl

/-! ### setCtx -/

@[simp] theorem setCtx_focus (s : State) (c : Ctx) : (s.setCtx c).focus = s.focus := rfl
@[simp] theorem setCtx_hart (s : State) (c : Ctx) : (s.setCtx c).hart = { s.hart with ctx := c } := rfl
@[simp] theorem setCtx_harts (s : State) (c : Ctx) : (s.setCtx c).harts = s.harts := rfl
@[simp] theorem setCtx_cores (s : State) (c : Ctx) : (s.setCtx c).cores = s.cores := rfl
@[simp] theorem setCtx_quads (s : State) (c : Ctx) : (s.setCtx c).quads = s.quads := rfl
@[simp] theorem setCtx_mem (s : State) (c : Ctx) : (s.setCtx c).mem = s.mem := rfl
@[simp] theorem setCtx_host (s : State) (c : Ctx) : (s.setCtx c).host = s.host := rfl
@[simp] theorem setCtx_hostUp (s : State) (c : Ctx) : (s.setCtx c).hostUp = s.hostUp := rfl
@[simp] theorem setCtx_gangs (s : State) (c : Ctx) : (s.setCtx c).gangs = s.gangs := rfl
@[simp] theorem setCtx_copies (s : State) (c : Ctx) : (s.setCtx c).copies = s.copies := rfl
@[simp] theorem setCtx_pageins (s : State) (c : Ctx) : (s.setCtx c).pageins = s.pageins := rfl
@[simp] theorem setCtx_heldContributions (s : State) (c : Ctx) : (s.setCtx c).heldContributions = s.heldContributions := rfl
@[simp] theorem setCtx_waiters (s : State) (c : Ctx) : (s.setCtx c).waiters = s.waiters := rfl
@[simp] theorem setCtx_feHeld (s : State) (c : Ctx) : (s.setCtx c).feHeld = s.feHeld := rfl
@[simp] theorem setCtx_grids (s : State) (c : Ctx) : (s.setCtx c).grids = s.grids := rfl
@[simp] theorem setCtx_pushes (s : State) (c : Ctx) : (s.setCtx c).pushes = s.pushes := rfl
@[simp] theorem setCtx_roots (s : State) (c : Ctx) : (s.setCtx c).roots = s.roots := rfl
@[simp] theorem setCtx_commands (s : State) (c : Ctx) : (s.setCtx c).commands = s.commands := rfl
@[simp] theorem setCtx_fabric (s : State) (c : Ctx) : (s.setCtx c).fabric = s.fabric := rfl
@[simp] theorem setCtx_molt (s : State) (c : Ctx) : (s.setCtx c).molt = s.molt := rfl
@[simp] theorem setCtx_eft (s : State) (c : Ctx) : (s.setCtx c).eft = s.eft := rfl
@[simp] theorem setCtx_images (s : State) (c : Ctx) : (s.setCtx c).images = s.images := rfl
@[simp] theorem setCtx_freezing (s : State) (c : Ctx) : (s.setCtx c).freezing = s.freezing := rfl
@[simp] theorem setCtx_frozenBy (s : State) (c : Ctx) : (s.setCtx c).frozenBy = s.frozenBy := rfl
@[simp] theorem setCtx_hostWrites (s : State) (c : Ctx) : (s.setCtx c).hostWrites = s.hostWrites := rfl
@[simp] theorem setCtx_agenda (s : State) (c : Ctx) : (s.setCtx c).agenda = s.agenda := rfl
@[simp] theorem setCtx_tick (s : State) (c : Ctx) : (s.setCtx c).tick = s.tick := rfl

/-! ### setCore -/

@[simp] theorem setCore_focus (s : State) (k : Nat) (c : Core) : (s.setCore k c).focus = s.focus := rfl
@[simp] theorem setCore_hart (s : State) (k : Nat) (c : Core) : (s.setCore k c).hart = s.hart := rfl
@[simp] theorem setCore_harts (s : State) (k : Nat) (c : Core) : (s.setCore k c).harts = s.harts := rfl
@[simp] theorem setCore_cores (s : State) (k : Nat) (c : Core) : (s.setCore k c).cores = assocSet s.cores k c := rfl
@[simp] theorem setCore_quads (s : State) (k : Nat) (c : Core) : (s.setCore k c).quads = s.quads := rfl
@[simp] theorem setCore_mem (s : State) (k : Nat) (c : Core) : (s.setCore k c).mem = s.mem := rfl
@[simp] theorem setCore_host (s : State) (k : Nat) (c : Core) : (s.setCore k c).host = s.host := rfl
@[simp] theorem setCore_hostUp (s : State) (k : Nat) (c : Core) : (s.setCore k c).hostUp = s.hostUp := rfl
@[simp] theorem setCore_gangs (s : State) (k : Nat) (c : Core) : (s.setCore k c).gangs = s.gangs := rfl
@[simp] theorem setCore_copies (s : State) (k : Nat) (c : Core) : (s.setCore k c).copies = s.copies := rfl
@[simp] theorem setCore_pageins (s : State) (k : Nat) (c : Core) : (s.setCore k c).pageins = s.pageins := rfl
@[simp] theorem setCore_heldContributions (s : State) (k : Nat) (c : Core) : (s.setCore k c).heldContributions = s.heldContributions := rfl
@[simp] theorem setCore_waiters (s : State) (k : Nat) (c : Core) : (s.setCore k c).waiters = s.waiters := rfl
@[simp] theorem setCore_feHeld (s : State) (k : Nat) (c : Core) : (s.setCore k c).feHeld = s.feHeld := rfl
@[simp] theorem setCore_grids (s : State) (k : Nat) (c : Core) : (s.setCore k c).grids = s.grids := rfl
@[simp] theorem setCore_pushes (s : State) (k : Nat) (c : Core) : (s.setCore k c).pushes = s.pushes := rfl
@[simp] theorem setCore_roots (s : State) (k : Nat) (c : Core) : (s.setCore k c).roots = s.roots := rfl
@[simp] theorem setCore_commands (s : State) (k : Nat) (c : Core) : (s.setCore k c).commands = s.commands := rfl
@[simp] theorem setCore_fabric (s : State) (k : Nat) (c : Core) : (s.setCore k c).fabric = s.fabric := rfl
@[simp] theorem setCore_molt (s : State) (k : Nat) (c : Core) : (s.setCore k c).molt = s.molt := rfl
@[simp] theorem setCore_eft (s : State) (k : Nat) (c : Core) : (s.setCore k c).eft = s.eft := rfl
@[simp] theorem setCore_images (s : State) (k : Nat) (c : Core) : (s.setCore k c).images = s.images := rfl
@[simp] theorem setCore_freezing (s : State) (k : Nat) (c : Core) : (s.setCore k c).freezing = s.freezing := rfl
@[simp] theorem setCore_frozenBy (s : State) (k : Nat) (c : Core) : (s.setCore k c).frozenBy = s.frozenBy := rfl
@[simp] theorem setCore_hostWrites (s : State) (k : Nat) (c : Core) : (s.setCore k c).hostWrites = s.hostWrites := rfl
@[simp] theorem setCore_agenda (s : State) (k : Nat) (c : Core) : (s.setCore k c).agenda = s.agenda := rfl
@[simp] theorem setCore_tick (s : State) (k : Nat) (c : Core) : (s.setCore k c).tick = s.tick := rfl

/-! ### later -/

@[simp] theorem later_focus (s : State) (i : Instr) : (s.later i).focus = s.focus := rfl
@[simp] theorem later_hart (s : State) (i : Instr) : (s.later i).hart = s.hart := rfl
@[simp] theorem later_harts (s : State) (i : Instr) : (s.later i).harts = s.harts := rfl
@[simp] theorem later_cores (s : State) (i : Instr) : (s.later i).cores = s.cores := rfl
@[simp] theorem later_quads (s : State) (i : Instr) : (s.later i).quads = s.quads := rfl
@[simp] theorem later_mem (s : State) (i : Instr) : (s.later i).mem = s.mem := rfl
@[simp] theorem later_host (s : State) (i : Instr) : (s.later i).host = s.host := rfl
@[simp] theorem later_hostUp (s : State) (i : Instr) : (s.later i).hostUp = s.hostUp := rfl
@[simp] theorem later_gangs (s : State) (i : Instr) : (s.later i).gangs = s.gangs := rfl
@[simp] theorem later_copies (s : State) (i : Instr) : (s.later i).copies = s.copies := rfl
@[simp] theorem later_pageins (s : State) (i : Instr) : (s.later i).pageins = s.pageins := rfl
@[simp] theorem later_heldContributions (s : State) (i : Instr) : (s.later i).heldContributions = s.heldContributions := rfl
@[simp] theorem later_waiters (s : State) (i : Instr) : (s.later i).waiters = s.waiters := rfl
@[simp] theorem later_feHeld (s : State) (i : Instr) : (s.later i).feHeld = s.feHeld := rfl
@[simp] theorem later_grids (s : State) (i : Instr) : (s.later i).grids = s.grids := rfl
@[simp] theorem later_pushes (s : State) (i : Instr) : (s.later i).pushes = s.pushes := rfl
@[simp] theorem later_roots (s : State) (i : Instr) : (s.later i).roots = s.roots := rfl
@[simp] theorem later_commands (s : State) (i : Instr) : (s.later i).commands = s.commands := rfl
@[simp] theorem later_fabric (s : State) (i : Instr) : (s.later i).fabric = s.fabric := rfl
@[simp] theorem later_molt (s : State) (i : Instr) : (s.later i).molt = s.molt := rfl
@[simp] theorem later_eft (s : State) (i : Instr) : (s.later i).eft = s.eft := rfl
@[simp] theorem later_images (s : State) (i : Instr) : (s.later i).images = s.images := rfl
@[simp] theorem later_freezing (s : State) (i : Instr) : (s.later i).freezing = s.freezing := rfl
@[simp] theorem later_frozenBy (s : State) (i : Instr) : (s.later i).frozenBy = s.frozenBy := rfl
@[simp] theorem later_hostWrites (s : State) (i : Instr) : (s.later i).hostWrites = s.hostWrites := rfl
@[simp] theorem later_agenda (s : State) (i : Instr) : (s.later i).agenda = s.agenda ++ [.event i] := rfl
@[simp] theorem later_tick (s : State) (i : Instr) : (s.later i).tick = s.tick := rfl

/-! ### setPc -/

@[simp] theorem setPc_focus (s : State) (a : Word) : (s.setPc a).focus = s.focus := rfl
@[simp] theorem setPc_hart (s : State) (a : Word) : (s.setPc a).hart = { s.hart with ctx := { s.hart.ctx with pc := a } } := rfl
@[simp] theorem setPc_harts (s : State) (a : Word) : (s.setPc a).harts = s.harts := rfl
@[simp] theorem setPc_cores (s : State) (a : Word) : (s.setPc a).cores = s.cores := rfl
@[simp] theorem setPc_quads (s : State) (a : Word) : (s.setPc a).quads = s.quads := rfl
@[simp] theorem setPc_mem (s : State) (a : Word) : (s.setPc a).mem = s.mem := rfl
@[simp] theorem setPc_host (s : State) (a : Word) : (s.setPc a).host = s.host := rfl
@[simp] theorem setPc_hostUp (s : State) (a : Word) : (s.setPc a).hostUp = s.hostUp := rfl
@[simp] theorem setPc_gangs (s : State) (a : Word) : (s.setPc a).gangs = s.gangs := rfl
@[simp] theorem setPc_copies (s : State) (a : Word) : (s.setPc a).copies = s.copies := rfl
@[simp] theorem setPc_pageins (s : State) (a : Word) : (s.setPc a).pageins = s.pageins := rfl
@[simp] theorem setPc_heldContributions (s : State) (a : Word) : (s.setPc a).heldContributions = s.heldContributions := rfl
@[simp] theorem setPc_waiters (s : State) (a : Word) : (s.setPc a).waiters = s.waiters := rfl
@[simp] theorem setPc_feHeld (s : State) (a : Word) : (s.setPc a).feHeld = s.feHeld := rfl
@[simp] theorem setPc_grids (s : State) (a : Word) : (s.setPc a).grids = s.grids := rfl
@[simp] theorem setPc_pushes (s : State) (a : Word) : (s.setPc a).pushes = s.pushes := rfl
@[simp] theorem setPc_roots (s : State) (a : Word) : (s.setPc a).roots = s.roots := rfl
@[simp] theorem setPc_commands (s : State) (a : Word) : (s.setPc a).commands = s.commands := rfl
@[simp] theorem setPc_fabric (s : State) (a : Word) : (s.setPc a).fabric = s.fabric := rfl
@[simp] theorem setPc_molt (s : State) (a : Word) : (s.setPc a).molt = s.molt := rfl
@[simp] theorem setPc_eft (s : State) (a : Word) : (s.setPc a).eft = s.eft := rfl
@[simp] theorem setPc_images (s : State) (a : Word) : (s.setPc a).images = s.images := rfl
@[simp] theorem setPc_freezing (s : State) (a : Word) : (s.setPc a).freezing = s.freezing := rfl
@[simp] theorem setPc_frozenBy (s : State) (a : Word) : (s.setPc a).frozenBy = s.frozenBy := rfl
@[simp] theorem setPc_hostWrites (s : State) (a : Word) : (s.setPc a).hostWrites = s.hostWrites := rfl
@[simp] theorem setPc_agenda (s : State) (a : Word) : (s.setPc a).agenda = s.agenda := rfl
@[simp] theorem setPc_tick (s : State) (a : Word) : (s.setPc a).tick = s.tick := rfl

/-! ### Registers -/

/-- x0 reads zero whatever was written (R44). -/
@[simp] theorem get_zero (c : Ctx) : c.get 0 = 0 := rfl

/-- A register reads what was written to it, and every other reads as before; x0 discards the write (R44). -/
theorem get_put (c : Ctx) (r : Reg) (v : Word) (e : Reg) : (c.put r v).get e = if e = r ∧ r ≠ 0 then v else c.get e := by
  unfold Ctx.put Ctx.get
  by_cases hr : r = 0
  · simp [hr]
  · by_cases he : e = r
    · subst e; simp [hr]
    · have hn : (r : Nat) ≠ e := fun h => he (Fin.ext h.symm)
      simp [hr, he, Vector.getElem_set_ne _ _ hn]

@[simp] theorem put_pc (c : Ctx) (r : Reg) (v : Word) : (c.put r v).pc = c.pc := by unfold Ctx.put; split <;> rfl
@[simp] theorem put_vl (c : Ctx) (r : Reg) (v : Word) : (c.put r v).vl = c.vl := by unfold Ctx.put; split <;> rfl
@[simp] theorem put_tl (c : Ctx) (r : Reg) (v : Word) : (c.put r v).tl = c.tl := by unfold Ctx.put; split <;> rfl
@[simp] theorem put_vn (c : Ctx) (r : Reg) (v : Word) : (c.put r v).vn = c.vn := by unfold Ctx.put; split <;> rfl
@[simp] theorem put_m (c : Ctx) (r : Reg) (v : Word) : (c.put r v).m = c.m := by unfold Ctx.put; split <;> rfl
@[simp] theorem put_fcsr (c : Ctx) (r : Reg) (v : Word) : (c.put r v).fcsr = c.fcsr := by unfold Ctx.put; split <;> rfl
@[simp] theorem put_fmask (c : Ctx) (r : Reg) (v : Word) : (c.put r v).fmask = c.fmask := by unfold Ctx.put; split <;> rfl
@[simp] theorem put_vstart (c : Ctx) (r : Reg) (v : Word) : (c.put r v).vstart = c.vstart := by unfold Ctx.put; split <;> rfl
@[simp] theorem put_lps (c : Ctx) (r : Reg) (v : Word) : (c.put r v).lps = c.lps := by unfold Ctx.put; split <;> rfl
@[simp] theorem put_srseed (c : Ctx) (r : Reg) (v : Word) : (c.put r v).srseed = c.srseed := by unfold Ctx.put; split <;> rfl
@[simp] theorem put_cbyp (c : Ctx) (r : Reg) (v : Word) : (c.put r v).cbyp = c.cbyp := by unfold Ctx.put; split <;> rfl
@[simp] theorem put_tiernote (c : Ctx) (r : Reg) (v : Word) : (c.put r v).tiernote = c.tiernote := by unfold Ctx.put; split <;> rfl
@[simp] theorem put_k (c : Ctx) (r : Reg) (v : Word) : (c.put r v).k = c.k := by unfold Ctx.put; split <;> rfl
@[simp] theorem put_v (c : Ctx) (r : Reg) (v : Word) : (c.put r v).v = c.v := by unfold Ctx.put; split <;> rfl
@[simp] theorem put_t (c : Ctx) (r : Reg) (v : Word) : (c.put r v).t = c.t := by unfold Ctx.put; split <;> rfl
@[simp] theorem put_bl (c : Ctx) (r : Reg) (v : Word) : (c.put r v).bl = c.bl := by unfold Ctx.put; split <;> rfl
@[simp] theorem put_racc (c : Ctx) (r : Reg) (v : Word) : (c.put r v).racc = c.racc := by unfold Ctx.put; split <;> rfl
@[simp] theorem put_rstat (c : Ctx) (r : Reg) (v : Word) : (c.put r v).rstat = c.rstat := by unfold Ctx.put; split <;> rfl
@[simp] theorem put_sCount (c : Ctx) (r : Reg) (v : Word) : (c.put r v).sCount = c.sCount := by unfold Ctx.put; split <;> rfl
@[simp] theorem put_eCount (c : Ctx) (r : Reg) (v : Word) : (c.put r v).eCount = c.eCount := by unfold Ctx.put; split <;> rfl
@[simp] theorem put_strip (c : Ctx) (r : Reg) (v : Word) : (c.put r v).strip = c.strip := by unfold Ctx.put; split <;> rfl
@[simp] theorem put_poison (c : Ctx) (r : Reg) (v : Word) : (c.put r v).poison = c.poison := by unfold Ctx.put; split <;> rfl

@[simp] theorem mark_pc (c : Ctx) (d : Reg) (b : Bool) : (c.mark d b).pc = c.pc := by unfold Ctx.mark; split <;> rfl
@[simp] theorem mark_x (c : Ctx) (d : Reg) (b : Bool) : (c.mark d b).x = c.x := by unfold Ctx.mark; split <;> rfl
@[simp] theorem mark_vl (c : Ctx) (d : Reg) (b : Bool) : (c.mark d b).vl = c.vl := by unfold Ctx.mark; split <;> rfl
@[simp] theorem mark_tl (c : Ctx) (d : Reg) (b : Bool) : (c.mark d b).tl = c.tl := by unfold Ctx.mark; split <;> rfl
@[simp] theorem mark_vn (c : Ctx) (d : Reg) (b : Bool) : (c.mark d b).vn = c.vn := by unfold Ctx.mark; split <;> rfl
@[simp] theorem mark_m (c : Ctx) (d : Reg) (b : Bool) : (c.mark d b).m = c.m := by unfold Ctx.mark; split <;> rfl
@[simp] theorem mark_fcsr (c : Ctx) (d : Reg) (b : Bool) : (c.mark d b).fcsr = c.fcsr := by unfold Ctx.mark; split <;> rfl
@[simp] theorem mark_fmask (c : Ctx) (d : Reg) (b : Bool) : (c.mark d b).fmask = c.fmask := by unfold Ctx.mark; split <;> rfl
@[simp] theorem mark_vstart (c : Ctx) (d : Reg) (b : Bool) : (c.mark d b).vstart = c.vstart := by unfold Ctx.mark; split <;> rfl
@[simp] theorem mark_lps (c : Ctx) (d : Reg) (b : Bool) : (c.mark d b).lps = c.lps := by unfold Ctx.mark; split <;> rfl
@[simp] theorem mark_srseed (c : Ctx) (d : Reg) (b : Bool) : (c.mark d b).srseed = c.srseed := by unfold Ctx.mark; split <;> rfl
@[simp] theorem mark_cbyp (c : Ctx) (d : Reg) (b : Bool) : (c.mark d b).cbyp = c.cbyp := by unfold Ctx.mark; split <;> rfl
@[simp] theorem mark_tiernote (c : Ctx) (d : Reg) (b : Bool) : (c.mark d b).tiernote = c.tiernote := by unfold Ctx.mark; split <;> rfl
@[simp] theorem mark_k (c : Ctx) (d : Reg) (b : Bool) : (c.mark d b).k = c.k := by unfold Ctx.mark; split <;> rfl
@[simp] theorem mark_v (c : Ctx) (d : Reg) (b : Bool) : (c.mark d b).v = c.v := by unfold Ctx.mark; split <;> rfl
@[simp] theorem mark_t (c : Ctx) (d : Reg) (b : Bool) : (c.mark d b).t = c.t := by unfold Ctx.mark; split <;> rfl
@[simp] theorem mark_bl (c : Ctx) (d : Reg) (b : Bool) : (c.mark d b).bl = c.bl := by unfold Ctx.mark; split <;> rfl
@[simp] theorem mark_racc (c : Ctx) (d : Reg) (b : Bool) : (c.mark d b).racc = c.racc := by unfold Ctx.mark; split <;> rfl
@[simp] theorem mark_rstat (c : Ctx) (d : Reg) (b : Bool) : (c.mark d b).rstat = c.rstat := by unfold Ctx.mark; split <;> rfl
@[simp] theorem mark_sCount (c : Ctx) (d : Reg) (b : Bool) : (c.mark d b).sCount = c.sCount := by unfold Ctx.mark; split <;> rfl
@[simp] theorem mark_eCount (c : Ctx) (d : Reg) (b : Bool) : (c.mark d b).eCount = c.eCount := by unfold Ctx.mark; split <;> rfl
@[simp] theorem mark_strip (c : Ctx) (d : Reg) (b : Bool) : (c.mark d b).strip = c.strip := by unfold Ctx.mark; split <;> rfl

/-- An S-word whose only effect is one register: the register, the PC and the count of retired words (R72, R134, R159). -/
theorem result_eq (s : State) (d : Reg) (v : Word) (srcs : List Reg) :
    s.result d v srcs = s.setCtx
      { (s.hart.ctx.put d v).mark d (srcs.any s.hart.ctx.xBad) with
        pc := s.hart.ctx.pc + 4, sCount := s.hart.ctx.sCount + if s.hart.level = .user then 1 else 0 } := by
  unfold State.result State.resultMarked State.retire State.stepPc State.setPc State.pc
  by_cases h : s.hart.level = .user <;> simp [State.setCtx, h]

/-! ### Taking a trap and returning from one -/

/-- The hart an entry leaves when it is no double fault (R298). -/
theorem trapEntry_hart (s : State) (t : Trap) (w : TrapAt) (h : s.hart.level = .user ∨ statusBit s.hart.sstatus inTrapBit = false) :
    let u := s.trapEntry t w
    u.hart.scause = scauseOf t w ∧ u.hart.stval = t.val ∧ u.hart.stval2 = t.val2 ∧ u.hart.sepc = w.sepc ∧ u.hart.sblka = w.sblka ∧
      u.hart.ctx.pc = s.hart.stvec &&& 0x01FFFFFFFFFFFFFC ∧ u.hart.ctx.x = s.hart.ctx.x ∧ u.hart.ctx.strip = none ∧
      u.hart.aside = s.hart.ctx.strip :: s.hart.aside ∧ u.hart.level = (if s.hart.level = .firmware then .firmware else .supervisor) ∧
      u.hart.run = .running ∧ u.cores = s.cores ∧ u.mem = s.mem ∧ u.host = s.host := by
  have hd : ¬ (s.hart.level ≠ .user ∧ statusBit s.hart.sstatus inTrapBit) := by
    rintro ⟨h1, h2⟩
    rcases h with h | h
    · exact h1 h
    · rw [h] at h2; cases h2
  simp only [State.trapEntry, if_neg hd]
  exact ⟨rfl, rfl, rfl, rfl, rfl, rfl, rfl, rfl, rfl, rfl, rfl, rfl, rfl, rfl⟩

/-- A trap inside a trap stops the hart and changes no register of it (R298). -/
theorem trapEntry_double (s : State) (t : Trap) (w : TrapAt) (h : s.hart.level ≠ .user) (hi : statusBit s.hart.sstatus inTrapBit = true) :
    s.trapEntry t w = s.doubleFault t := by
  simp only [State.trapEntry, if_pos (And.intro h hi)]

/-- Bringing a set-aside context back leaves SEPC (R302). -/
@[simp] theorem recall_sepc (h : Hart) : h.recall.sepc = h.sepc := by
  unfold Hart.recall; split <;> (try split) <;> rfl

/-- Resuming the suspended blocks leaves SEPC (R299). -/
@[simp] theorem resume_sepc (h : Hart) : h.resume.sepc = h.sepc := by
  unfold Hart.resume; split <;> rfl

/-- A return goes on at SEPC, with the strip of the entry open again (R300). -/
theorem trapReturn_pc (s : State) : s.trapReturn.hart.ctx.pc = s.hart.sepc := by
  unfold State.trapReturn State.onFocus
  dsimp only
  split <;> split <;> first | rfl | rw [resume_sepc, recall_sepc]

end Sys2Proof.Laws
end

