-- ==== Sys2Proof/Tests/Slice0.lean ====
section
/-! SUPPORT. Words written out from the encodings of spec/, ill-formed terms that the checks refuse, and for every statement
with hypotheses a state and operands that meet them. -/

namespace Sys2Proof.Tests

set_option Elab.async false

open Sys2Proof Sys2Proof.Machine Sys2Proof.Safety

/-! ### Words laid out field by field (R137, R139, R143, R148) -/

theorem test_decode_addi : decodeTableWord 32 0x04500064 = some (.addi 5 0 100) := by decide +kernel
theorem test_decode_branch : decodeTableWord 32 0x30110004 = some (.beq 1 2 4) := by decide +kernel
theorem test_decode_bsa : decodeTableWord 32 0x3C338002 = some (.bsa 3 7 2) := by decide +kernel
theorem test_decode_loopst : decodeTableWord 32 0x4C418003 = some (.loopst 4 3 3) := by decide +kernel
theorem test_decode_csrr : decodeTableWord 32 0x50500010 = some (.csrr 5 0x10) := by decide +kernel
theorem test_decode_fadd : decodeTableWord 32 0x5A308BC0 = some (.fadd 3 1 2 7 true) := by decide +kernel
theorem test_decode_eret : decodeTableWord 32 0x58000002 = some .eret := by decide +kernel
theorem test_decode_fence : decodeTableWord 32 0x7E000018 = some (.fenceRel 3) := by decide +kernel

/-- VLD.N64 v1, [x16]: opcode 0x80, vd = 1, type 15, every other field 0. -/
theorem test_decode_vld : decodeTableWord 64 0x8004000000F00000 =
    some (.vld { vd := 1, va := 0, vb := 0, vc := 0, ca := false, cb := false, cc := false, k := 0, pol := false, sh := false,
                 ty := 15, rm := 0, sg := 0, xs := false, fn := 0 }) := by decide +kernel

/-- Opcodes of no row, for an S-word and for an E-word (R135, R138). -/
theorem test_decode_unallocated : decodeTableWord 32 0xFE000000 = none ∧ decodeTableWord 64 0xFF00000000000000 = none := by
  decide +kernel

theorem test_decode_families :
    ([0x4E520000, 0x70551000, 0x72051800, 0x60758000, 0x6C500000].map fun w => (decodeTableWord 32 w).isSome) =
      [true, true, true, true, true] ∧
    ([0x450C200004000000, 0x810801400C102802, 0x6814100000A00001, 0x711820C0006E0001, 0xA3040140003E2828, 0x8A0020C004100905,
      0x100C10808A1E0000, 0x3804104000F02001, 0x4814100000000000].map fun w => (decodeTableWord 64 w).isSome) =
      [true, true, true, true, true, true, true, true, true] := by decide +kernel

/-! ### Ill-formed terms (R138, R144 to R147) -/

/-- An E-word's fields with every field 0 but the type. -/
def plainWord (ty : BitVec 4) : EWord :=
  { vd := 0, va := 0, vb := 0, vc := 0, ca := false, cb := false, cc := false, k := 0, pol := false, sh := false,
    ty := ty, rm := 0, sg := 0, xs := false, fn := 0 }

theorem test_wellformed_words : WellFormed (.vadd (plainWord 10)) ∧ WellFormed (.fadd 1 2 3 7 true) ∧ WellFormed (.loopst 1 4 0) := by
  decide +kernel

theorem test_refuses_scalar_fields :
    ¬ WellFormed (.loopst 1 0 0) ∧ ¬ WellFormed (.loopst 1 5 0) ∧ ¬ WellFormed (.setvl 1 2 5) ∧ ¬ WellFormed (.fadd 1 2 3 5 true) ∧
    ¬ WellFormed (.fsqrt 1 2 6 true) ∧ ¬ WellFormed (.fma 1 2 3 4 5 true) ∧ ¬ WellFormed (.fcvt 1 2 0 true 3) ∧
    ¬ WellFormed (.fcvtToInt 1 2 0 true 0) := by decide +kernel

theorem test_refuses_sync_fields :
    ¬ WellFormed (.cpG 1 2 3 true true 0) ∧ ¬ WellFormed (.ratom 1 2 3 0 true 10) ∧ ¬ WellFormed (.ratom 1 2 31 0 true 9) ∧
    ¬ WellFormed (.awaitany 1 2 3 33 true true) ∧ ¬ WellFormed (.awaitany 1 2 3 0 false true) ∧ ¬ WellFormed (.ldfe 1 2 3 false) ∧
    ¬ WellFormed (.amo 1 2 3 5 1 true 0) ∧ ¬ WellFormed (.amo 1 2 3 1 0 true 0) ∧ ¬ WellFormed (.fenceAcq 5) ∧
    ¬ WellFormed (.msend 1 2 0 0xF0) ∧ ¬ WellFormed (.galloc 1 2 5) ∧ ¬ WellFormed (.galloc 1 2 22) := by decide +kernel

/-- Each check of an E-word's fields refuses a word that breaks it alone. -/
theorem test_refuses_element_fields :
    let w := plainWord 10
    ¬ WellFormed (.vcmp { w with vd := 8 }) ∧ ¬ WellFormed (.kand { plainWord 0 with va := 8 }) ∧ ¬ WellFormed (.mzero { plainWord 0 with vd := 4 }) ∧
    ¬ WellFormed (.vsqrt { plainWord 1 with vb := 1 }) ∧ ¬ WellFormed (.vadd { w with vc := 1 }) ∧ ¬ WellFormed (.kpopc { plainWord 0 with vd := 32 }) ∧
    ¬ WellFormed (.vadd { w with xs := true, vb := 16 }) ∧ ¬ WellFormed (.vadd { w with xs := true, cb := true }) ∧
    ¬ WellFormed (.vperm { w with xs := true }) ∧ ¬ WellFormed (.vlds { w with xs := false }) ∧
    ¬ WellFormed (.kand { plainWord 0 with ca := true }) ∧ ¬ WellFormed (.vabs { w with cb := true }) ∧ ¬ WellFormed (.vadd { w with cc := true }) ∧
    ¬ WellFormed (.vadd { w with pol := true }) ∧ ¬ WellFormed (.vmerge { w with k := 1 }) ∧ ¬ WellFormed (.vst { w with sh := true }) ∧
    ¬ WellFormed (.vadd { w with ty := 7 }) ∧ ¬ WellFormed (.vadd { w with rm := 1 }) ∧ ¬ WellFormed (.vadd { w with sg := 5 }) ∧
    ¬ WellFormed (.vadd { w with fn := 1 }) ∧ ¬ WellFormed (.vnop { plainWord 0 with sg := 1 }) ∧ ¬ WellFormed (.vcvt { w with fn := 10 }) := by
  decide +kernel

/-! ### States to start from -/

/-- A state with the device memory that a change of it leaves. -/
def withMem (s : State) (f : State → State) : State := { s with mem := (f s).mem }

/-- The firmware core of quadrant 0 after reset, with one page of device memory mapped at address 0. -/
def fw : State := withMem State.reset fun s => s.mapPage 0 0 0x4000000 0x2000000

/-- A gang of one core. -/
def oneGang : Gang :=
  { gid := 1, part := 0, classS := false, cores := [0], kc := 0, spad := 1, heapBase := 0x1000, heapSize := 0x1000, heap := [],
    nextCoid := 1, prio := 0, ending := false, notify := false, mring := false, quad := 0, qsb := 0, donek := 0, job := none,
    cancelled := false, keys := [] }

/-- A coroutine of it on hart 0. -/
def oneCoro : Coro := { Coro.new 1 0 0 0 0 (Ctx.fresh 0) with running := true }

/-- Core 0, in partition 0 with that gang's coroutine on hart 0 at user level, and the page mapped for it. -/
def user : State :=
  let h : Hart := { Hart.reset (.hart 0 0) with run := .running, occ := some (1, 0) }
  let s : State := { State.reset with
    focus := .hart 0 0, hart := h, cores := [(0, { Core.reset 0 with coros := [oneCoro] })], gangs := [oneGang]
    roots := State.reset.roots.set 0 (0x5000000, 0x5000000) }
  withMem s fun s => ((s.putNum (.dev (Config.controlBase + 0x400)) 1 0).setPartState 0 1).mapPage 0 0 0x4000000 0x2000000

theorem calm_fw : Calm fw := ⟨rfl, rfl, rfl⟩
theorem calm_user : Calm user := ⟨rfl, rfl, rfl⟩
theorem runner_user : Runner user 0 0 1 0 := ⟨rfl, rfl, rfl⟩
theorem mayTrap_user : MayTrap user := .inl rfl
theorem mayTrap_fw : MayTrap fw := .inr (by decide +kernel)

/-- An address where a store is nothing but its bytes, as a test. -/
def plainAt (s : State) (l : Loc) : Bool :=
  match l with
  | .dev a => (pcaField a).isNone && (portField a).isNone
      && decide (¬ (Config.controlBase + 0x400 ≤ a ∧ a < Config.controlBase + 0x400 + Config.cores))
      && decide (¬ (Config.fabricBase + 0x2000 ≤ a ∧ a < Config.fabricBase + 0x2800))
      && decide (¬ (Config.healthBase ≤ a ∧ a < Config.healthBase + Config.healthBytes))
      && !s.inFaultRecord l && (a % 256 != 15 || !s.holdsSlot l)
  | _ => true

theorem ordinary_of {s : State} {l : Loc} (h : plainAt s l = true) : Ordinary s l := by
  cases l with
  | dev a =>
    simp only [plainAt, Bool.and_eq_true, decide_eq_true_eq, Option.isNone_iff_eq_none, Bool.not_eq_true', Bool.or_eq_true, bne_iff_ne] at h
    exact ⟨h.1.1.1.1.1.1, h.1.1.1.1.1.2, h.1.1.1.1.2, h.1.1.1.2, h.1.1.2, h.1.2, fun e => h.2.resolve_left fun n => n e⟩
  | _ => trivial

/-- With no frame replaced, a place is plain where its address is. -/
theorem plain_of {s : State} {l : Loc} (h0 : s.molt.remap = []) (h : plainAt s l = true) : Plain s l := fun e he => by
  rw [Laws.storage_fresh h0, Laws.storage_fresh h0] at he
  exact he ▸ ordinary_of h

theorem apart_of {s : State} (h0 : s.molt.remap = []) : Apart s := fun a b _ _ h => by
  rw [Laws.storage_fresh h0, Laws.storage_fresh h0] at h
  exact Loc.dev.inj h

theorem once_of {s : State} (h0 : s.molt.remap = []) {ls : List Loc} (h : ls.Nodup) : (ls.map s.storage).Nodup := by
  rwa [show s.storage = id from funext (Laws.storage_fresh h0), List.map_id]

/-- Places that may take a store, as a test. -/
def storable (s : State) (ls : List Loc) : Bool :=
  s.mem.wf resetByte && s.host.wf zeroByte && s.cores.all (fun p => p.2.spad.wf zeroByte) && decide ls.Nodup
  && ls.all (plainAt s) && s.molt.remap.isEmpty
  && (ls.all fun l => !s.leased l && !s.pinned l) && !s.loopAhead ls

theorem storable_of {s : State} {ls : List Loc} (h : storable s ls = true) : Storable s ls := by
  simp only [storable, Bool.and_eq_true, List.all_eq_true, decide_eq_true_eq, Bool.not_eq_true'] at h
  obtain ⟨⟨⟨⟨⟨⟨⟨h1, h2⟩, h3⟩, h4⟩, h5⟩, h0⟩, h6⟩, h7⟩ := h
  have h0 := List.isEmpty_iff.mp h0
  exact ⟨⟨h1, h2, fun p hp => h3 p hp⟩, once_of h0 h4, fun l hl => plain_of h0 (h5 l hl), fun l hl => ⟨(h6 l hl).1, (h6 l hl).2⟩, h7⟩

theorem unmapped_of {s : State} {ls : List Loc} (h : storable s ls = true) : s.molt.remap = [] := by
  simp only [storable, Bool.and_eq_true] at h
  exact List.isEmpty_iff.mp h.1.1.2

/-- The places of an access are found, clean, and may take a store. -/
def found (s : State) (v : Viewer) (a n g : Nat) (w : Bool) : Bool :=
  match s.locate v a n g w with
  | .ok p => p.tiers.isEmpty && p.locs.all (fun l => !s.seenBad l) && storable s p.locs
  | .error _ => false

theorem spot_of {s : State} {v : Viewer} {a n g : Nat} {w : Bool} (h : found s v a n g w = true) :
    ∃ p, s.locate v a n g w = .ok p ∧ p.tiers = [] ∧ (∀ l ∈ p.locs, s.seenBad l = false) ∧ Storable s p.locs := by
  unfold found at h
  split at h
  · rename_i p hp
    simp only [Bool.and_eq_true, List.isEmpty_iff, List.all_eq_true, Bool.not_eq_true'] at h
    exact ⟨p, hp, h.1.1, h.1.2, storable_of h.2⟩
  · cases h

/-- An access faults with a cause that is not a translation fault. -/
def faults (s : State) (v : Viewer) (a n g : Nat) (w : Bool) : Bool :=
  match s.locate v a n g w with
  | .ok _ => false
  | .error f => f.sub == 0 && f.cause != .xlateFault

theorem fault_of {s : State} {v : Viewer} {a n g : Nat} {w : Bool} (h : faults s v a n g w = true) :
    ∃ f : Trap, s.locate v a n g w = .error f ∧ f.sub = 0 ∧ f.cause ≠ .xlateFault := by
  unfold faults at h
  split at h
  · cases h
  · rename_i f hf
    simp only [Bool.and_eq_true, beq_iff_eq, bne_iff_ne] at h
    exact ⟨f, hf, h.1, h.2⟩

/-- A state with a value in register r. -/
def withX (s : State) (r : Reg) (v : Word) : State := s.onFocus fun h => { h with ctx := { h.ctx with x := h.ctx.x.set r v } }

/-- A state with register r poisoned. -/
def tainted (s : State) (r : Reg) : State := s.onFocus fun h => { h with ctx := { h.ctx with poison := [xWord r] } }

theorem tainted_of (s : State) (r : Reg) : XPoisoned (tainted s r) r := by simp [XPoisoned, tainted, State.onFocus]

/-- An E-word as the next word of a block in flight: VL = 8 in a strip of 8, TL = 4, x16 = 64 and x17 = 16 in the snapshot. -/
def lane (s : State) (i : Instr) (vl : Nat) (stages : Nat) : State :=
  s.onFocus fun h => { h with
    ctx := { h.ctx with vl := vl, tl := 4, m := true }
    blocks := [{ addr := 0x100, words := [match encode i with | some e => word e.2 | none => 0, word 0x0200000000000000], fault := none,
                 idx := 0, snap := [64, 16] ++ List.replicate 14 0, vl := vl, tl := 4, p := stages, rm := 0, vstart := 0, bad := [], sCount := 0,
                 inStrip := false, user := h.level == .user, raise := none }] }

/-- An E-word may act, as a test. -/
def atWord (i : Instr) (s : State) : Bool :=
  match shapeOf i, s.hart.blocks.head? with
  | some (p, w), some b => s.hart.unchecked.isEmpty && !s.regBusy p w && shapeOk p w && s.eLegal b i p w
      && (decide (w.sg = 0) || bit b.p (w.sg.toNat - 1)) && (b.entryPoison i w).isNone && b.raise.isNone
  | _, _ => false

theorem atWord_of {i : Instr} {s : State} (h : atWord i s = true) : ∃ p w b, AtWord i p w b s := by
  unfold atWord at h
  split at h
  · rename_i p w b h1 h2
    simp only [Bool.and_eq_true, List.isEmpty_iff, Bool.not_eq_true', Bool.or_eq_true, decide_eq_true_eq,
      Option.isNone_iff_eq_none] at h
    exact ⟨p, w, b, h2, h1, h.1.1.1.1.1.1, h.1.1.1.1.1.2, h.1.1.1.1.2, h.1.1.1.2, h.1.1.2, h.1.2, h.2⟩
  · cases h

/-- Fields of an E-word on vector registers 1, 2, 3 and 4. -/
def vw (ty : BitVec 4) : EWord := { plainWord ty with vd := 1, va := 2, vb := 3 }

/-- Block control and the first arithmetic words. -/
def wordsBlock : List Instr :=
  [.vnop (plainWord 0), .vstop (plainWord 0), .mstart (plainWord 0), .mstop (plainWord 0), .vadd (vw 10), .vsub (vw 1), .vmul (vw 15)]

/-- Arithmetic of R190. -/
def wordsFloat : List Instr :=
  [.vfma { vw 10 with vc := 4 }, .vfms { vw 8 with vc := 4 }, .vfnma { vw 1 with vc := 4, rm := 7 }, .vdiv (vw 0), .vsqrt { vw 1 with vb := 0 },
    .vrsqrt { vw 1 with vb := 0 }, .vrcp { vw 1 with vb := 0 }, .vexp2 { vw 1 with vb := 0 }, .vlog2 { vw 1 with vb := 0 }, .vmin (vw 12),
    .vmax (vw 2), .vabs { vw 10 with vb := 0 }, .vneg { vw 11 with vb := 0 }]

/-- Integer words. -/
def wordsInt : List Instr :=
  [.vmulh (vw 10), .vsadd (vw 8), .vssub (vw 12), .vand (vw 10), .vor (vw 10), .vxor (vw 10), .vnot { vw 10 with vb := 0 },
    .vclz { vw 10 with vb := 0 }, .vpopc { vw 10 with vb := 0 }, .vshl (vw 10), .vshr { vw 10 with vb := 0, fn := 0x5F }, .vsra (vw 9),
    .vcmp { vw 10 with fn := 5 }]

/-- Mask words. -/
def wordsMask : List Instr :=
  [.kand (vw 0), .kor (vw 0), .kxor (vw 0), .knot { vw 0 with vb := 0 }, .ksbf { vw 0 with vb := 0 }, .ksif { vw 0 with vb := 0 },
    .ksof { vw 0 with vb := 0 }, .kpopc { vw 0 with vb := 0 }, .kfirst { vw 0 with vb := 0 }]

/-- Merges, permutes and moves. -/
def wordsMove : List Instr :=
  [.vmerge { vw 10 with vc := 4 }, .vmergeF { vw 10 with vc := 4 }, .vslideup { vw 10 with vb := 0, fn := 2 }, .vslidedn { vw 10 with vb := 1, xs := true },
    .vperm (vw 10), .vcompress { vw 10 with vb := 0, vc := 4 }, .vexpand { vw 10 with vb := 0, vc := 4 }, .viota { vw 10 with vb := 0 },
    .vid { vw 10 with va := 0, vb := 0 }, .vbcast { vw 10 with vb := 0 }, .vmovx { vw 10 with vb := 0 }, .vins { vw 10 with va := 0, vb := 1, xs := true }]

/-- Reductions, scans and conversions. -/
def wordsReduce : List Instr :=
  [.vredsum { vw 10 with vb := 0 }, .vredmax { vw 10 with vb := 0 }, .vredmin { vw 10 with vb := 0, fn := 4, vc := 4 }, .vscanAdd { vw 10 with vb := 0 },
    .vscanMax { vw 10 with vb := 0 }, .vcvt { vw 1 with vb := 0, fn := 10 }, .vscale { vw 1 with fn := 4 }]

/-- Vector memory. -/
def wordsMemory : List Instr :=
  [.vld { vw 10 with va := 0, vb := 0 }, .vlds { vw 10 with va := 0, vb := 1, xs := true }, .vldx { vw 10 with va := 0 }, .vldff { vw 10 with va := 0, vb := 0 },
    .vldg { vw 10 with va := 0, vb := 1, xs := true }, .vpref { vw 10 with vd := 0, va := 0, vb := 0 }, .vst { vw 10 with vd := 0, vb := 0 },
    .vsts { vw 10 with vd := 0, vb := 1, xs := true }, .vstx { vw 10 with vd := 0 }, .vstg { vw 10 with vd := 0, vb := 1, xs := true },
    .vsqCommit (plainWord 0), .vsqDrop (plainWord 0)]

/-- Matrix words. -/
def wordsMatrix : List Instr :=
  [.mzero { plainWord 0 with vd := 1 }, .opa { vw 3 with va := 0, vb := 1, xs := true }, .ops { vw 3 with va := 0, vb := 1, xs := true },
    .opaSp { vw 8 with va := 0, vb := 1, xs := true }, .mld { vw 10 with va := 0, vb := 1, xs := true }, .mst { vw 10 with vd := 0, vb := 1, xs := true },
    .mlatch { vw 3 with vd := 0, va := 0, vb := 1, xs := true }, .mrot (plainWord 0), .mmovV { vw 10 with vb := 0 }, .vmovM { vw 10 with vb := 0 },
    .mcvt { vw 3 with vb := 0, fn := 1 }]

/-- One word of every element instruction. -/
def elementWords : List Instr := [wordsBlock, wordsFloat, wordsInt, wordsMask, wordsMove, wordsReduce, wordsMemory, wordsMatrix].flatten

theorem test_words_act :
    (elementWords.all fun i => atWord i (lane user i 8 0) && atWord i (lane user i 0 0)) = true := by decide +kernel

/-! ### Hypotheses that can be met: a state and operands for every statement that has any -/

theorem calm_of {s : State} (h : (s.hart.blocks.isEmpty && s.hart.pend.isEmpty && s.hart.ctx.strip.isNone) = true) : Calm s := by
  simp only [Bool.and_eq_true, List.isEmpty_iff, Option.isNone_iff_eq_none] at h
  exact ⟨h.1.1, h.1.2, h.2⟩

theorem clean_of {s : State} (h : s.hart.ctx.poison = []) (rs : List Reg) : CleanX s rs := by
  intro r _ hx
  rw [XPoisoned, h] at hx
  exact absurd hx (by simp)

/-- The coroutine of `user` with an open strip and one pending store of byte 7 to address 0x40. -/
def stripped : State :=
  let s := user.onFocus fun h => { h with ctx := { h.ctx with strip := some (h.ctx.checkpoint 0x20) } }
  s.onFocus fun h => { h with pend := [{ idx := 0, addr := 0x40, bytes := [(.dev 0x4000040, 7, 255)], lines := [], remote := none,
                                         poisoned := false, whole := [], tiers := [] }] }

/-- The coroutine of `user` in its trap handler, with the status bits `st`. -/
def handler (st : Word) : State := user.onFocus fun h => { h with level := .supervisor, sstatus := h.sstatus ||| st }

/-- A block whose words could not be fetched, one element in. -/
def unfetched : Block :=
  { addr := 0, words := [], fault := some { cause := .xlateFault }, idx := 0, snap := [], vl := 0, tl := 0, p := 0, rm := 0
    vstart := 3, bad := [], sCount := 0, inStrip := false, user := true, raise := none }

/-- The handler with a suspended block and a lazy record. -/
def returning (st : Word) : State := (handler st).onFocus fun h => { h with suspended := [unfetched], lazy := some h.ctx }

theorem witness_BranchesAndJumps :
    (readX user 0 + (2 : BitVec 15).signExtend 64).toNat % 4 ≠ 0 ∧ user.hart.blocks = [] ∧
    (readX user 0 + (4 : BitVec 15).signExtend 64).toNat % 4 = 0 := by decide +kernel

theorem witness_LoopsAndLengths :
    (let s := withX user 5 (word (2 ^ 32)); bits s.hart.ctx.lps.toNat 3 0 = 0 ∧ 1 ≤ (readX s 5).toNat ∧ (readX s 5).toNat ≤ 2 ^ 32) ∧
    (bits user.hart.ctx.lps.toNat 3 0 = 0 ∧ (readX user 5).toNat = 0) ∧
    (let s := withX user 5 (word (2 ^ 32 + 1)); bits s.hart.ctx.lps.toNat 3 0 = 0 ∧ (readX s 5).toNat > 2 ^ 32 ∧ s.hart.blocks = []) ∧
    (let s := user.onFocus fun h => { h with ctx := { h.ctx with lps := 0x300000001 } }; bits s.hart.ctx.lps.toNat 3 0 ≠ 0) ∧
    (4 : BitVec 3).toNat ≤ 4 ∧ stripped.hart.ctx.strip = some (user.hart.ctx.checkpoint 0x20) ∧ Calm (tainted user 5) ∧
    XPoisoned (tainted user 5) 5 ∧ CleanX user [5] ∧ Calm user :=
  ⟨by decide +kernel, by decide +kernel, by decide +kernel, by decide +kernel, by decide, by decide +kernel, calm_of rfl, tainted_of _ _,
    clean_of rfl _, calm_user⟩

/-- A poisoned source of a branch, each way, and of JALR, BSA and LOOPST; a poisoned VL before LOOPV. -/
theorem witness_BranchesAndJumps_poison : XPoisoned (tainted user 5) 5 ∧ (tainted user 5).hart.blocks = [] ∧ CleanX (tainted user 5) [0] ∧
    CleanX user [0, 5] ∧ bits (tainted user 5).hart.ctx.lps.toNat 3 0 = 0 ∧
    (let s := user.onFocus fun h => { h with ctx := { h.ctx with poison := [vlMark] } }
     s.hart.blocks = [] ∧ ¬ XPoisoned s 5 ∧ vlMark ∈ s.hart.ctx.poison) :=
  ⟨tainted_of _ _, rfl, fun r hr => by rw [List.mem_singleton.mp hr]; simp [XPoisoned, tainted, State.onFocus, xWord], clean_of rfl _, by decide +kernel,
    rfl, by simp [XPoisoned, State.onFocus, vlMark, xWord], by simp [State.onFocus]⟩

theorem witness_ScalarFloats : fpRound 0 = true ∧ fpRound 4 = true ∧ fpRound 7 = true := by decide +kernel

theorem witness_IllegalWords : Calm user ∧ MayTrap user ∧ user.hart.level = .user ∧ (5 : BitVec 3).toNat = 5 ∧ NoStrip user ∧
    (let s := lane user (.vadd (vw 10)) 8 0
     NoStrip s ∧ MayTrap s ∧ s.hart.unchecked = [] ∧ s.hart.blocks.head?.isSome = true) ∧
    (let s := user.onFocus fun h => { h with blocks := [unfetched] }
     NoStrip s ∧ s.hart.unchecked = [] ∧ ∃ b, s.hart.blocks.head? = some b ∧ b.words.length ≤ b.idx) :=
  ⟨calm_user, mayTrap_user, rfl, rfl, ⟨rfl, rfl⟩, ⟨⟨rfl, rfl⟩, .inl rfl, rfl, rfl⟩, ⟨rfl, rfl⟩, rfl, _, rfl, by decide⟩

/-- A hart that runs no coroutine, the firmware core, and a word whose RM field its row does not allow. -/
theorem witness_IllegalWords_refusals :
    (let s := user.onFocus fun h => { h with occ := none }
     Calm s ∧ MayTrap s ∧ s.hart.occ = none ∧ s.isFw = false) ∧
    (Calm fw ∧ MayTrap fw ∧ fw.isFw = true) ∧
    (let i := Instr.vadd { vw 10 with rm := 1 }
     let s := lane user i 8 0
     NoStrip s ∧ MayTrap s ∧ s.hart.unchecked = [] ∧ ∃ p w b, s.hart.blocks.head? = some b ∧ shapeOf i = some (p, w) ∧
       s.regBusy p w = false ∧ b.raise = none ∧ shapeOk p w = false) :=
  ⟨⟨⟨rfl, rfl, rfl⟩, .inl rfl, rfl, rfl⟩, ⟨calm_fw, mayTrap_fw, rfl⟩, ⟨rfl, rfl⟩, .inl rfl, rfl, _, _, _, rfl, rfl, by decide +kernel, rfl,
    by decide +kernel⟩

theorem witness_ScalarLoads : user.hart.blocks = [] ∧ ¬ XPoisoned user 0 ∧
    ∀ n ∈ [1, 2, 4, 8], ∃ p, user.locate user.view (readX user 0 + (0x40 : BitVec 15).signExtend 64).toNat n 1 false = .ok p ∧
      p.tiers = [] ∧ (∀ l ∈ p.locs, user.seenBad l = false) ∧ NoLoops user p.locs := by
  refine ⟨rfl, clean_of rfl [0] 0 (by simp), fun n hn => ?_⟩
  have h : ∀ n ∈ [1, 2, 4, 8], found user user.view (readX user 0 + (0x40 : BitVec 15).signExtend 64).toNat n 1 false = true := by
    decide +kernel
  obtain ⟨p, h1, h2, h3, h4⟩ := spot_of (h n hn)
  exact ⟨p, h1, h2, h3, h4.turn⟩

theorem witness_ScalarStores : Calm user ∧ ¬ XPoisoned user 0 ∧
    ∀ n ∈ [1, 2, 4, 8], ∃ p, user.locate user.view (readX user 0 + (0x40 : BitVec 15).signExtend 64).toNat n 1 true = .ok p ∧
      p.tiers = [] ∧ Storable user p.locs := by
  refine ⟨calm_user, clean_of rfl [0] 0 (by simp), fun n hn => ?_⟩
  have h : ∀ n ∈ [1, 2, 4, 8], found user user.view (readX user 0 + (0x40 : BitVec 15).signExtend 64).toNat n 1 true = true := by
    decide +kernel
  obtain ⟨p, h1, h2, _, h4⟩ := spot_of (h n hn)
  exact ⟨p, h1, h2, h4⟩

/-- The address -8, whose upper bits are not zero, lies in a hole (R81). -/
theorem witness_AccessFaults : Calm user ∧ MayTrap user ∧ ¬ XPoisoned user 0 ∧ ∀ n ∈ [1, 2, 4, 8], ∀ w, ∃ f : Trap,
    user.locate user.view (readX user 0 + (0x7FF8 : BitVec 15).signExtend 64).toNat n 1 w = .error f ∧ f.sub = 0 := by
  refine ⟨calm_user, mayTrap_user, clean_of rfl [0] 0 (by simp), fun n hn w => ?_⟩
  have h : ∀ n ∈ [1, 2, 4, 8], ∀ w, faults user user.view (readX user 0 + (0x7FF8 : BitVec 15).signExtend 64).toNat n 1 w = true := by
    decide +kernel
  obtain ⟨f, h1, h2, _⟩ := fault_of (h n hn w)
  exact ⟨f, h1, h2⟩

theorem witness_CsrInstructions : csrCheck user.hart.level 0x18 = none ∧ user.csrWaits 0x18 = false ∧ user.isFw = false ∧ Calm user ∧
    (∃ u, user.csrWrite 0x18 (readX user 0) = .ok u) ∧ (∃ u, user.csrWrite 0x18 (user.csrValue 0x18 ||| readX user 0) = .ok u) ∧
    (∃ u, user.csrWrite 0x18 (user.csrValue 0x18 &&& ~~~(readX user 0)) = .ok u) ∧
    fw.focus = .fw 0 ∧ csrCheck fw.hart.level 0x200 = none ∧ fw.csrWaits 0x200 = false ∧ XPoisoned (tainted user 5) 5 ∧ Calm (tainted user 5) ∧
    user.hart.ctx.fmask = 0 ∧ user.hart.occ = some (1, 0) ∧ user.focus = .hart 0 0 ∧ (fw.quad 0).events = [] ∧
    (let c := { user.hart.ctx with fmask := 0xC }
     c.fmask < 2 ^ 65536 ∧ bit c.fmask 2 = true ∧ ∀ j < 2, bit c.fmask j = false) ∧
    ((fw.onQuad 0 fun k => { k with events := [{ code := 7, arg := 0, arg2 := 0 }] }).quad 0).events ≠ [] :=
  ⟨by decide +kernel, by decide +kernel, rfl, calm_user, ⟨_, rfl⟩, ⟨_, rfl⟩, ⟨_, rfl⟩, rfl, by decide +kernel, by decide +kernel, tainted_of _ _,
    calm_of rfl, by decide +kernel, rfl, rfl, by decide +kernel,
    ⟨Nat.lt_of_lt_of_le (by decide : 0xC < 2 ^ 4) (Nat.pow_le_pow_right (by decide) (by decide)), by decide, by decide⟩, by decide +kernel⟩

/-- VL marked poisoned, which CSRR hands on. -/
theorem witness_CsrInstructions_mark :
    let s := user.onFocus fun h => { h with ctx := { h.ctx with poison := [vlMark] } }
    csrCheck s.hart.level 0x10 = none ∧ s.csrWaits 0x10 = false ∧ vlMark ∈ s.hart.ctx.poison := by decide +kernel

theorem witness_CsrPrivilege : Calm user ∧ user.hart.level = .user ∧ (0x100 : BitVec 12).toNat = 0x100 ∧ userCsr 0xFF = false :=
  ⟨calm_user, rfl, rfl, by decide +kernel⟩

theorem witness_CsrWritesKeepReservedBits : Calm user ∧ Calm (handler 0) ∧ (handler 0).hart.level ≠ .user ∧
    bits (readX (withX user 5 0x5000) 5).toNat 14 12 ≤ 5 ∧ bits (readX (withX user 5 0x6000) 5).toNat 14 12 > 5 ∧
    (user.regCopies = [] ∧ user.isFw = false ∧ (readX (withX user 5 3) 5).toNat % 4 ≠ user.hart.ctx.vn ∧ CleanX user [5]) ∧
    ((handler 0).focus = .hart 0 0 ∧ (handler 0).hart.level = .supervisor ∧ ((handler 0).core 0).ctxBusy = false ∧
      1 ≤ bits (2 ^ 61 : Word).toNat 63 61 ∧ bits (2 ^ 61 : Word).toNat 63 61 ≤ 4 ∧ bits (7 * 2 ^ 61 : Word).toNat 63 61 > 4) ∧
    (((handler 0).onCore 0 fun c => { c with ctxBusy := true }).core 0).ctxBusy = true :=
  ⟨calm_user, ⟨rfl, rfl, rfl⟩, by decide +kernel, by decide +kernel, by decide +kernel, ⟨rfl, rfl, by decide +kernel, clean_of rfl _⟩,
    by decide +kernel, by decide +kernel⟩

theorem witness_RegisterWriteSteps :
    (user.hart.blocks = [] ∧ user.regCopies = [] ∧ user.isFw = false ∧ (3 : Word).toNat % 4 ≠ user.hart.ctx.vn) ∧
    fw.isFw = true ∧ user.focus = .hart 0 0 ∧ (user.core 0).coros ≠ [] ∧ (user.core 1).coros = [] ∧
    (user.core 0).holdsMessages = false ∧ bits (0x500000005 : Word).toNat 23 0 ≤ bits (0x500000005 : Word).toNat 55 32 ∧
    bits (5 : Word).toNat 46 32 = 0 ∧
    (∃ u, fw.csrWrite 0x18 7 = .ok u) ∧
    (bits (0x800010000 : Word).toNat 46 32 = 8 ∧ (bits (0x800010000 : Word).toNat 19 6 + 8) * 64 ≤ Config.spadBytes ∧
      user.ringInGang 0 0x400 = false ∧ bits (0x8000FFFC0 : Word).toNat 46 32 = 8 ∧
      Config.spadBytes < (bits (0x8000FFFC0 : Word).toNat 19 6 + 8) * 64) ∧
    (let r : InboxRec := { unit := 0, units := 1, pad := false, made := false, raised := false, released := false,
                           msg := { type := 1, sep := 0, scid := 0, units := 1, seq := 0, payload := [] } }
     ((user.onCore 0 fun c => { c with inbox := [r] }).core 0).inbox = [r] ∧ r.pad = false ∧ r.made = false ∧ (1 : Word).getLsbD 0 = true) ∧
    ((fw.onQuad 0 fun k => { k with events := [{ code := 7, arg := 0, arg2 := 0 }] }).quads[0]).events = [{ code := 7, arg := 0, arg2 := 0 }] :=
  ⟨by decide +kernel, rfl, rfl, by decide +kernel, by decide +kernel, by decide +kernel, by decide +kernel, by decide +kernel, ⟨_, rfl⟩,
    by decide +kernel, by decide +kernel, by decide +kernel⟩

theorem witness_StripCloses : (∃ u, Closes stripped u) ∧ MayAct stripped true ∧ WellFormed .stripend ∧
    (lane user (.vadd (vw 10)) 8 0).hart.blocks ≠ [] ∧ MayAct (lane user (.vadd (vw 10)) 8 0) true ∧ csrCheck stripped.hart.level 0x18 = none ∧
    (2 : BitVec 6).toNat < regCount stripped.hart.ctx.vn ∧ (handler 0).hart.level ≠ .user := by
  refine ⟨?_, .inr ⟨rfl, by decide +kernel⟩, by decide +kernel, by decide +kernel, .inr ⟨rfl, by decide +kernel⟩, by decide +kernel,
    by decide +kernel, by decide +kernel⟩
  have h : (match stripped.closeStrip with | .ok _ => true | .error _ => false) = true := by decide +kernel
  unfold Closes
  cases hc : stripped.closeStrip with
  | ok u => exact ⟨u, rfl⟩
  | error e => rw [hc] at h; exact absurd h (by simp)

theorem witness_CallsAndWaits : Calm (tainted user 5) ∧ XPoisoned (tainted user 5) 5 ∧ Calm user ∧ MayTrap user ∧ Calm (handler 0) ∧ (handler 0).hart.level ≠ .user ∧
    (let s := (handler (word (2 ^ 54))).onFocus fun h => { h with run := .wfm }
     s.focus = .hart 0 0 ∧ s.hart.run = .wfm ∧ statusBit s.hart.sstatus 54 = true) ∧
    (let s := (handler 0).onFocus fun h => { h with run := .wfm }
     s.hart.run = .wfm ∧ (s.core 0).inbox = [] ∧ (s.core 0).asyncs = [] ∧ statusBit s.hart.sstatus 54 = false) ∧
    (let s := (fw.onQuad 0 fun k => { k with events := [{ code := 7, arg := 0, arg2 := 0 }] }).onFocus fun h => { h with run := .wfm }
     s.focus = .fw 0 ∧ s.hart.run = .wfm ∧ (s.quad 0).events ≠ []) :=
  ⟨calm_of rfl, tainted_of _ _, calm_user, mayTrap_user, ⟨rfl, rfl, rfl⟩, by decide +kernel, by decide +kernel, by decide +kernel, by decide +kernel⟩

/-- A return to user level with a suspended block and a lazy record, one with SBD, one from a nested handler. -/
theorem witness_TrapReturn : (∀ st, Calm (returning st) ∧ (returning st).hart.level ≠ .user ∧ (returning st).hart.suspended = [unfetched] ∧
      (returning st).hart.lazy = some (returning st).hart.ctx) ∧
    statusBit (returning (word (2 ^ 62))).hart.sstatus 62 = true ∧ statusBit (returning (word (2 ^ 58))).hart.sstatus 58 = true ∧
    statusBit (returning (word (2 ^ 60))).hart.sstatus 60 = true ∧ statusBit (returning (word (2 ^ 60))).hart.sstatus 62 = false ∧
    statusBit (returning (word (2 ^ 61))).hart.sstatus 61 = true ∧ statusBit (returning (word (2 ^ 60))).hart.sstatus 61 = false ∧
    fw.hart.level = .firmware :=
  ⟨fun _ => ⟨⟨rfl, rfl, rfl⟩, by simp [returning, handler, State.onFocus], rfl, rfl⟩, by decide +kernel, by decide +kernel, by decide +kernel,
    by decide +kernel, by decide +kernel, by decide +kernel, by decide +kernel⟩

theorem witness_DoubleFault : (handler (word (2 ^ 63))).hart.level ≠ .user ∧ statusBit (handler (word (2 ^ 63))).hart.sstatus 63 = true ∧
    (handler (word (2 ^ 63))).focus = .hart 0 0 ∧ ((handler (word (2 ^ 63))).quad 0).events.length < Config.maxEvents := by decide +kernel

theorem witness_StripEndAndAllowance : (∃ u, Closes stripped u) ∧ (lane user (.vadd (vw 10)) 8 0).hart.blocks ≠ [] ∧ Calm user :=
  ⟨witness_StripCloses.1, by decide +kernel, calm_user⟩

theorem witness_VectorFetch :
    ((8 : Word).toNat % 8 = 0 ∧ user.hart.blocks.length < 4 ∧ user.hart.level ≠ .supervisor) ∧
    (let s := handler 0
     s.hart.level = .supervisor ∧ statusBit s.hart.sstatus 62 = false ∧ statusBit s.hart.sstatus 61 = false ∧
     statusBit s.hart.sstatus 60 = false ∧ (s.lazySave.respill s.cid).overFull s.cid = false) ∧
    (let s := (handler 0).onCore 0 fun c => { c with coros := c.coros ++ List.replicate 48 (Coro.new 1 1 0 0 0 (Ctx.fresh 0)) }
     s.hart.level = .supervisor ∧ statusBit s.hart.sstatus 62 = false ∧ (s.lazySave.respill s.cid).overFull s.cid = true) ∧
    (let s := lane user (.vadd (vw 10)) 8 0
     (s.onFocus fun h => { h with blocks := h.blocks ++ h.blocks ++ h.blocks ++ h.blocks }).hart.blocks.length ≥ 4) ∧
    (BitVec.ofInt 64 (user.hart.ctx.pc.toNat + (1 : BitVec 20).toInt * 4)).toNat % 8 ≠ 0 ∧ user.hart.blocks = [] ∧ NoStrip user ∧ MayTrap user :=
  ⟨by decide +kernel, by decide +kernel, by decide +kernel, by decide +kernel, by decide +kernel, rfl, ⟨rfl, rfl⟩, mayTrap_user⟩

/-- A block fetched at user level with VL, or TL alone, marked poisoned. -/
theorem witness_VectorFetch_marks :
    (tainted user 5).hart.level = .user ∧ (tainted user 5).hart.blocks = [] ∧
    (let s := user.onFocus fun h => { h with ctx := { h.ctx with poison := [vlMark] } }
     s.hart.level = .user ∧ s.hart.blocks = [] ∧ vlMark ∈ s.hart.ctx.poison) ∧
    (let s := user.onFocus fun h => { h with ctx := { h.ctx with poison := [tlMark] } }
     s.hart.level = .user ∧ s.hart.blocks = [] ∧ vlMark ∉ s.hart.ctx.poison ∧ tlMark ∈ s.hart.ctx.poison) := by decide +kernel

/-- Sync words at 0x40 (V = 1, GEN 0, TARGET 5) and at 0x50 (V = 1, TARGET 2^40 - 1), and a token of the first in x6. -/
def synced : State :=
  withX (withMem user fun s => (((s.putNum (.dev 0x4000040) 8 (2 ^ 63)).putNum (.dev 0x4000048) 8 5).putNum (.dev 0x4000050) 8 (2 ^ 63)).putNum
    (.dev 0x4000058) 8 (2 ^ 40 - 1)) 6 (tokenOf 0 4 0)

/-- The token of generation 0 of a word whose phase has passed: x7 names generation 65,535 of the word at 0x40. -/
def signalled : State := withX synced 7 (tokenOf 0 4 65535)

/-- The words of `synced` with xa = 0x40 in x5, or 0x50 in x8. -/
def atWords : State := withX (withX signalled 5 0x40) 8 0x50

theorem witness_SyncWords : Calm atWords ∧ CleanX atWords [5, 6] ∧
    atWords.syncSpot (readX atWords 5).toNat true true = .ok (some (.dev 0x4000040), 4) ∧ Storable atWords ((Loc.dev 0x4000040).run 16) ∧
    Storable atWords (((Loc.dev 0x4000040).plus 8).run 8) ∧ atWords.syncClean (.dev 0x4000040) 2 (readX atWords 5) = .ok () ∧
    atWords.syncV (.dev 0x4000040) = true ∧
    (atWords.syncSpot (readX atWords 8).toNat true true = .ok (some (.dev 0x4000050), 5) ∧ atWords.syncV (.dev 0x4000050) = true ∧
      2 ^ 40 ≤ bits (atWords.num ((Loc.dev 0x4000050).plus 8) 8) 39 0 + (readX atWords 5).toNat) ∧
    (user.syncClean (.dev 0x4000040) 2 0x40 = .ok () ∧ user.syncV (.dev 0x4000040) = false) ∧
    atWords.syncSpot (readX atWords 5).toNat false false = .ok (none, 4) ∧
    (tokenEp (readX atWords 6) = atWords.fabric.eid ∧ granNames (tokenGran (readX atWords 6)) = true ∧
      atWords.tokenWord (readX atWords 6) false = .ok (.dev 0x4000040) ∧ atWords.tokenWord (readX atWords 6) true = .ok (.dev 0x4000040) ∧
      atWords.combined = false ∧ atWords.storesOut = false ∧ Unheld atWords ((Loc.dev 0x4000040).run 16) ∧ CleanX atWords [6, 5]) ∧
    granNames (2 ^ 35 - 1) = false :=
  ⟨calm_of rfl, clean_of rfl _, by decide +kernel, storable_of (by decide +kernel), storable_of (by decide +kernel), by decide +kernel,
    by decide +kernel, by decide +kernel, by decide +kernel, by decide +kernel,
    ⟨by decide +kernel, by decide +kernel, by decide +kernel, by decide +kernel, by decide +kernel, by decide +kernel,
      (storable_of (by decide +kernel)).free, clean_of rfl _⟩, by decide +kernel⟩

theorem witness_Contributions : MemoriesWf synced ∧ (∀ x ∈ (Loc.dev 0x4000040).run 8, Plain synced x) ∧
    (((Loc.dev 0x4000040).run 8).map synced.storage).Nodup ∧ bit (synced.num (.dev 0x4000040) 8) 63 = true ∧
    bits (synced.num ((Loc.dev 0x4000040).plus 8) 8) 39 0 = 5 ∧ min (bits (synced.num (.dev 0x4000040) 8) 39 0 + 5) (2 ^ 40 - 1) = 5 :=
  ⟨(storable_of (ls := []) (by decide +kernel)).wf, (storable_of (by decide +kernel)).plain, (storable_of (by decide +kernel)).once, by decide +kernel, by decide +kernel, by decide +kernel⟩

theorem witness_Waits : Calm atWords ∧ MayAct atWords false ∧ atWords.regCopies = [] ∧ CleanX atWords [6, 0] ∧
    atWords.tokenWord (readX atWords 6) false = .ok (.dev 0x4000040) ∧
    signalledBy (atWords.syncGen (.dev 0x4000040)) (readX atWords 7) = true ∧
    signalledBy (atWords.syncGen (.dev 0x4000040)) (readX atWords 6) = false ∧ Runner atWords 0 0 1 0 ∧
    ((atWords.core 0).coro 1 0).isSome = true ∧ CacheRoom atWords 0 1 0 (readX atWords 0).toNat true ∧
    atWords.waiters.countP (fun r => atWords.homeUnit r.loc == atWords.homeUnit (.dev 0x4000040)) < Config.maxWaiters ∧
    (let s := atWords.onFocus fun h => { h with level := .supervisor }; MayAct s false ∧ s.hart.level ≠ .user) ∧
    (WellFormed (.awaitany 1 5 0 1 true true) ∧ atWords.issue.tokenList 0x100 1 0 = .ok (atWords.issue, [0]) ∧
      atWords.issue.tokenRead (readX atWords 6) 0 = .ok (some false) ∧ atWords.issue.tokenRead (readX atWords 7) 0 = .ok (some true)) ∧
    atWords.hart.issued = none ∧ atWords.hart.tokens = none ∧ (atWords.onFocus fun h => { h with tokens := some [0] }).hart.tokens = some [0] ∧
    (let s := (atWords.onFocus fun h => { h with issued := some 0 }).onCore 0 fun c => { c with inboxSeen := 1 }
     s.hart.issued = some 0 ∧ 0 < (s.core s.cid).inboxSeen) :=
  ⟨calm_of rfl, .inr ⟨rfl, by decide +kernel⟩, rfl, clean_of rfl _, by decide +kernel, by decide +kernel, by decide +kernel, ⟨rfl, rfl, rfl⟩,
    by decide +kernel, (show State.overFull _ _ = false by decide +kernel), by decide +kernel, ⟨.inr ⟨rfl, by decide +kernel⟩, by decide +kernel⟩,
    by decide +kernel, rfl, rfl, rfl, by decide +kernel⟩

/-- `user` with the word at 0x40 empty. -/
def emptied : State := withMem user fun s => s.putFull (.dev 0x4000040) false

theorem witness_FullEmpty :
    (∀ s ∈ [withX user 5 0x40, withX emptied 5 0x40],
      found s s.view (readX s 5).toNat 8 8 true = true ∧ s.feHeld = [] ∧ s.hart.ctx.poison = [] ∧ s.combined = false ∧ s.storesOut = false ∧
      (s.core 0).coro 1 0 ≠ none) ∧
    ((withX user 5 0x40).locate (withX user 5 0x40).view 0x40 8 8 true).toOption.map (·.locs) = some ((Loc.dev 0x4000040).run 8) ∧
    (Loc.dev 0x4000040).word = Loc.dev 0x4000040 ∧ user.fullAt (.dev 0x4000040) = true ∧ emptied.fullAt (.dev 0x4000040) = false ∧
    Runner (withX emptied 5 0x40) 0 0 1 0 ∧ Runner (withX user 5 0x40) 0 0 1 0 ∧ CacheRoom (withX user 5 0x40) 0 1 0 fullMask user.hart.ctx.m ∧
    CacheRoom (withX emptied 5 0x40) 0 1 0 fullMask user.hart.ctx.m ∧
    (let s := { withX emptied 5 0x40 with
       feHeld := [{ loc := .dev 0x4000040, lines := [], stfe := false, v := 0, who := .coro 0 1 0 6 }] }
     (∃ p, s.locate s.view (readX s 5).toNat 8 8 true = .ok p ∧ p.tiers = [] ∧ Storable s p.locs) ∧ s.poisonAt (.dev 0x4000040) = false ∧
       (∀ k, (s.core 0).coro 1 0 = some k → k.resident = true)) :=
  ⟨by decide +kernel, by decide +kernel, rfl, by decide +kernel, by decide +kernel, ⟨rfl, rfl, rfl⟩, ⟨rfl, rfl, rfl⟩,
    (show State.overFull _ _ = false by decide +kernel), (show State.overFull _ _ = false by decide +kernel),
    (let ⟨p, h1, h2, _, h4⟩ := spot_of (g := 8) (by decide +kernel); ⟨p, h1, h2, h4⟩), by decide +kernel,
    fun k h => by injection h with h; rw [← h]; rfl⟩

theorem witness_LocalAtomics : Calm user ∧ CleanX user [5, 6, 7] ∧ WellFormed (.amo 1 5 6 1 3 true 9) ∧ WellFormed (.amo 1 5 6 0 0 false 0) ∧
    Released user ∧ ∀ n ∈ [4, 8], ∃ q, user.locate user.view (readX user 5).toNat n n true = .ok q ∧ q.tiers = [] ∧ Storable user q.locs ∧
      user.poisonCheck q.locs (readX user 5).toNat = .ok () := by
  refine ⟨calm_user, clean_of rfl _, by decide +kernel, by decide +kernel, .inr (by decide +kernel), fun n hn => ?_⟩
  have h : ∀ n ∈ [4, 8], found user user.view (readX user 5).toNat n n true = true ∧
      (match user.locate user.view (readX user 5).toNat n n true with
        | .ok q => decide (user.poisonCheck q.locs (readX user 5).toNat = .ok ()) | .error _ => false) = true := by decide +kernel
  obtain ⟨q, h1, h2, _, h4⟩ := spot_of (h n hn).1
  have h5 := (h n hn).2
  rw [h1] at h5
  exact ⟨q, h1, h2, h4, by simpa using h5⟩

/-- A coroutine with x8 = 9, an endpoint, and x9 a token of endpoint 9; units for it are held. -/
def afar : State :=
  let s := withX (withX user 8 9) 9 (tokenOf 9 4 0)
  { s with fabric := { s.fabric with units := [(9, 8)] } }

theorem witness_RemoteAsks : Calm afar ∧ CleanX afar [8, 5, 6, 7] ∧ WellFormed (.ratom 8 5 6 2 true 9) ∧
    (readX afar 5).toNat % 8 = 0 ∧ remoteStraddles (readX afar 5).toNat 8 = false ∧ NoOwnStores afar 9 (readX afar 5).toNat 8 ∧ Released afar ∧
    afar.feAsked 9 (.fe 0 0 0) = false ∧ tokenEp (readX afar 9) ≠ afar.fabric.eid ∧ granNames (tokenGran (readX afar 9)) = true ∧
    (readX afar 6).toNat < 2 ^ 40 ∧ HasUnits afar 9 1 ∧ user.fabric.waits = [] ∧ user.fabric.unitsFor 9 = 0 ∧ Runner user 0 0 1 0 ∧
    CacheRoom user 0 1 0 fullMask user.hart.ctx.m :=
  ⟨calm_of rfl, clean_of rfl _, by decide +kernel, by decide +kernel, by decide +kernel,
    .inr (show _ ∧ _ ∧ _ from ⟨by decide +kernel, by decide +kernel, by decide +kernel⟩), .inr (by decide +kernel), by decide +kernel, by decide +kernel,
    by decide +kernel, by decide +kernel, ⟨rfl, by decide +kernel, by decide +kernel⟩, rfl, by decide +kernel, runner_user,
    (show State.overFull _ _ = false by decide +kernel)⟩

/-- A line of the coroutine of `user` in its combining buffer. -/
def oneLine : CombLine := { ep := 9, line := 1, bytes := [(0, 7)], bad := [], owner := (1, 0), since := 0, due := false }

/-- A queued remote store of that coroutine. -/
def oneStore : RemoteStore := { ep := 9, gid := 1, coid := 0, op := .store 0x40 [some 7] [], u := 2, group := 0 }

theorem witness_Fences : Calm user ∧ (4 : BitVec 3).toNat ≤ 4 ∧ Released user ∧
    (let s := user.onCore 0 fun c => { c with comb := [oneLine] }; s.isFw = false ∧ s.combined = true) ∧
    (let s := user.onCore 0 fun c => { c with outq := [oneStore] }; s.isFw = false ∧ s.combined = false ∧ s.storesOut = true) ∧
    (let s := user.onCore 0 fun c => { c with comb := [oneLine], outq := List.replicate 64 oneStore }
     s.combined = true ∧ 64 ≤ (s.core s.cid).outq.length) :=
  ⟨calm_user, by decide, .inr (by decide +kernel), by decide +kernel, by decide +kernel, by decide +kernel⟩

theorem witness_MessageSend : Calm afar ∧ CleanX afar [8, 5] ∧ WellFormed (.msend 8 5 3 1) ∧ afar.isFw = false ∧
    HasUnits afar (bits (readX afar 8).toNat 12 0) 4 ∧ (∃ x, afar.loadNum (readX afar 5).toNat 248 1 = .ok (afar, x)) ∧ afar.fabric.kept = [] ∧
    NoOwnStores afar (bits (readX afar 8).toNat 12 0) 0 0 := by
  refine ⟨calm_of rfl, clean_of rfl _, by decide +kernel, rfl, ⟨rfl, by decide +kernel, by decide +kernel⟩, ⟨0, ?_⟩, rfl,
    .inr (show _ ∧ _ ∧ _ from ⟨by decide +kernel, by decide +kernel, by decide +kernel⟩)⟩
  decide +kernel

theorem witness_Coroutines : Calm user ∧ CleanX user [5] ∧ MayAct user true ∧ Released user ∧ user.view.gang = some oneGang ∧
    (readX user 5).toNat % 4 = 0 ∧ user.spawnCore oneGang = some 0 ∧ SlotFree user 0 user.hart.ctx.vn ∧ Runner user 0 0 1 0 ∧
    (∀ k ∈ (user.core 0).coros, k.running = true) ∧
    (let s := user.onCore 0 fun c => { c with coros := c.coros ++ [Coro.new 1 1 0 0 0 (Ctx.fresh 0)] }
     (∃ k ∈ (s.core 0).coros, k.home = 0 ∧ k.running = false ∧ k.met = true ∧ k.pre = false) ∧ CacheRoom s 0 1 0 fullMask s.hart.ctx.m) ∧
    (let s := user.onCore 0 fun c => { c with coros := List.replicate 1024 oneCoro }; s.spawnCore oneGang = none) ∧
    (let s := user.onCore 0 fun c => { c with coros := c.coros ++ List.replicate 49 (Coro.new 1 1 0 0 0 (Ctx.fresh 0)) }
     s.spawnCore oneGang = some 0 ∧ (match s.create oneGang 0 0 (spawnCtx s.hart.ctx 3 0) none with | .ok _ => false | .error _ => true) = true) ∧
    (let s := handler 0; MayAct s true ∧ s.hart.level ≠ .user) :=
  ⟨calm_user, clean_of rfl _, .inr ⟨rfl, by decide +kernel⟩, .inr (by decide +kernel), by decide +kernel, by decide +kernel, by decide +kernel,
    (show _ ∧ _ from ⟨by decide +kernel, by decide +kernel⟩), runner_user, by decide +kernel,
    ⟨by decide +kernel, (show State.overFull _ _ = false by decide +kernel)⟩, by decide +kernel, by decide +kernel,
    ⟨.inr ⟨rfl, by decide +kernel⟩, by decide +kernel⟩⟩

/-- `user` whose gang's heap holds one allocation of 64 bytes, at its start, or is full. -/
def heaped (l : List (Nat × Nat)) : State := { user with gangs := [{ oneGang with heap := l }] }

theorem witness_HeapWords : (∀ l ∈ [[], [(0x1000, 0x40)], [(0x1000, 0x1000)]], Calm (heaped l) ∧ MayAct (heaped l) true ∧
      (heaped l).view.gang = some { oneGang with heap := l } ∧ l.Pairwise (fun e f => e.1 + e.2 ≤ f.1) ∧
      ∀ e ∈ l, 0 < e.2 ∧ 0x1000 ≤ e.1 ∧ e.1 + e.2 ≤ 0x2000) ∧
    WellFormed (.galloc 1 5 6) ∧ CleanX (heaped []) [5] ∧ Released (heaped []) ∧ (0x1040 % 2 ^ 6 = 0 ∧ 0x1040 + 64 ≤ 0x2000) ∧
    (readX (withX (heaped [(0x1000, 0x40)]) 5 0x1000) 5).toNat = 0x1000 := by
  refine ⟨fun l hl => ?_, by decide +kernel, clean_of rfl _, .inr (by decide +kernel), by decide, by decide +kernel⟩
  simp only [List.mem_cons, List.not_mem_nil, or_false] at hl
  rcases hl with rfl | rfl | rfl <;>
    exact ⟨calm_of rfl, .inr ⟨rfl, by decide +kernel⟩, by decide +kernel, by decide, by decide⟩

/-- A parameter block of kinds sk and dk: one row of 64 bytes, from 0x400 or the self window to 0x800 or the self window (R246). -/
def copyBlock (sk dk : Nat) : Nat :=
  let at_ := fun k a => if k = 1 then 2 ^ 56 else a
  2 ^ 56 + sk * 2 ^ 51 + dk * 2 ^ 48 + at_ sk 0x400 * 2 ^ 64 + at_ dk 0x800 * 2 ^ 128 + (2 ^ 48 + 2 ^ 32 + 64) * 2 ^ 192

/-- `afar` with that block at address 0 and VL = 2. -/
def copying (sk dk : Nat) : State :=
  withMem (afar.onFocus fun h => { h with ctx := { h.ctx with vl := 2 } }) fun s => s.putNum (.dev 0x4000000) 128 (copyBlock sk dk)

/-- The premises of an issue: the block is read and legal, its rows lie where they may, and its units are held. -/
def issueMet (which sk dk : Nat) (gather : Bool) : Bool :=
  let s := copying sk dk
  match s.loadNum 0 128 64 with
  | .error _ => false
  | .ok (t, blk) =>
    let w := (List.range 16).map fun i => blk / 2 ^ (64 * i) % 2 ^ 64
    let rows := if gather then (s.gatherRows which (paramsOf w) 2 false false 0).toOption else none
    let p := if namesEp which (paramsOf w) then paramsOf w else { paramsOf w with ep := 9 }
    decide (t = s) && paramsOk which s.vbytes (regCount s.hart.ctx.vn) w && (!gather || rows == some (List.replicate 2 (p.src, p.dst)) || which == 1)
      && (rows.getD [(p.src, p.dst)]).all (fun r => rowOk 1 p.sk r.1.toNat p.e0 && (decide (3 ≤ p.dk) || rowOk 1 p.dk r.2.toNat p.e0))
      && decide (5 ≤ s.fabric.unitsFor p.ep) && s.copies.isEmpty && s.regCopies.isEmpty && !s.combined && !s.storesOut
      && s.fabric.waits.isEmpty && !s.fabric.heldSelf p.ep

theorem witness_CopyIssue : (∀ sk dk, Calm (copying sk dk) ∧ CleanX (copying sk dk) [0, 8]) ∧
    WellFormed (.cpG 1 0 2 false false 0) ∧ WellFormed (.cpS 1 0 2 false false 0) ∧
    issueMet 0 0 0 false = true ∧ issueMet 1 1 1 true = true ∧ issueMet 2 1 0 true = true ∧ issueMet 3 2 0 false = true ∧
    issueMet 4 0 2 false = true ∧
    (∃ blk, user.loadNum 0 128 64 = .ok (user, blk) ∧
      paramsOk 0 user.vbytes (regCount user.hart.ctx.vn) ((List.range 16).map fun i => blk / 2 ^ (64 * i) % 2 ^ 64) = false) :=
  ⟨fun _ _ => ⟨⟨rfl, rfl, rfl⟩, clean_of rfl _⟩, by decide +kernel, by decide +kernel, by decide +kernel, by decide +kernel, by decide +kernel,
    by decide +kernel, by decide +kernel, 0, by decide +kernel, by decide +kernel⟩

/-- A grid of one block of eight FP32 elements in device memory at 0x1000, with its sync words at 0x2000 (R122). -/
def gridWords : List Word :=
  [word (2 ^ 56 + 2 ^ 52 + 2 ^ 50 + 2 ^ 49), word (8 + 2 ^ 21 + 2 ^ 42), word (8 + 2 ^ 21 + 2 ^ 42), 0x101, 0, 0x700000000, 0x1000, 0x2000, 0, 0,
    0, 0, 0, 0, word (0xFFFF * 2 ^ 48), 0]

/-- Its descriptor at address 0. -/
def declaring : State := withMem user fun s => s.putNum (.dev 0x4000000) 128 (ofBytes (gridWords.flatMap fun w => bytesOf 8 w.toNat))

/-- The grid declared under handle 0. -/
def oneGrid (pub : Option Nat) (complete : Nat) : Grid :=
  { gid := 1, part := 0, handle := 0, desc := gridWords
    blocks := [{ j := 0, pub := pub, unread := false, complete := complete, tags := [], parts := [], reported := none, stepper := none }] }

/-- `user` with the grid. -/
def gridded (pub : Option Nat) (complete : Nat) : State := { user with grids := [oneGrid pub complete] }

theorem witness_GridWords :
    (Calm declaring ∧ MayAct declaring true ∧ CleanX declaring [0] ∧ declaring.view.gang = some oneGang ∧
      declaring.loadNum 0 128 64 = .ok (declaring, ofBytes (gridWords.flatMap fun w => bytesOf 8 w.toNat)) ∧
      (let g : Grid := { gid := 1, part := 0, handle := 65536, desc := gridWords, blocks := [] }
       g.fieldsOk = true ∧ g.parent = 0xFFFF ∧ declaring.gridFits g oneGang = true ∧ g.sync % 32 = 0 ∧ g.localCount 0 = 1 ∧
       g.sync + 32 ≤ Config.syncEnd ∧ (declaring.initWords g 1).toOption.isSome = true)) ∧
    (∀ pub complete, Calm (gridded pub complete) ∧ MayAct (gridded pub complete) true ∧ CleanX (gridded pub complete) [0]) ∧
    (gridded none 0).taggedGrid 0 = .ok (oneGrid none 0, oneGang, 0) ∧ (oneGrid none 0).localCount 0 = 1 ∧
    oneGang.cores[0 / max 1 (oneGrid none 0).bpc]? = some 0 ∧ (∀ o ∈ (gridded none 0).gangGrids (oneGrid none 0), o.regions = []) ∧
    Released (gridded none 0) ∧ (0 = (oneGrid none 0).step0) ∧
    (gridded (some 0) 1).taggedGrid 0 = .ok (oneGrid (some 0) 1, oneGang, 0) ∧ (0 < (oneGrid (some 0) 1).step0 + 1) ∧
    (gridded none 0).taggedGrid 1 = .ok (oneGrid none 0, oneGang, 1) ∧ ((oneGrid none 0).step0 + 0 ≤ 1) ∧ Runner (gridded none 0) 0 0 1 0 ∧
    CacheRoom (gridded none 0) 0 1 0 fullMask user.hart.ctx.m ∧
    (∀ p ∈ (gridded none 0).gangGrids (oneGrid none 0), p.parent ≠ 0) ∧ (gridded none 0).stepWaits (oneGrid none 0) = false ∧
    (gridded none 0).pushes = [] := by
  refine ⟨⟨calm_of rfl, .inr ⟨rfl, by decide +kernel⟩, clean_of rfl _, by decide +kernel, by decide +kernel, by decide +kernel⟩,
    fun _ _ => ⟨⟨rfl, rfl, rfl⟩, .inr ⟨rfl, Option.some_ne_none (1, 0)⟩, clean_of rfl _⟩, ?_⟩
  have h : CacheRoom (gridded none 0) 0 1 0 fullMask user.hart.ctx.m := show State.overFull _ _ = false by decide +kernel
  exact ⟨by decide +kernel, by decide +kernel, by decide +kernel, by decide +kernel, .inr (by decide +kernel), by decide +kernel, by decide +kernel,
    by decide +kernel, by decide +kernel, by decide +kernel, ⟨rfl, rfl, rfl⟩, h, by decide +kernel, by decide +kernel, rfl⟩

/-- A grid of one dimension of FP32 elements in device memory: `ext` of them in blocks of `bx`, `per` blocks for an endpoint and for a core,
halo width 1, boundary rule `br` on both faces, key `key`, its storage at 0x1000 + `at_`, its sync words at 0x2000 + `at_`, and words 14 and
15 (R122). -/
def lineWords (ext bx per br key at_ : Nat) (w14 w15 : Nat) : List Word :=
  [word (2 ^ 56 + 2 ^ 52 + 2 ^ 50 + 2 ^ 49), word (ext + 2 ^ 21 + 2 ^ 42), word (bx + 2 ^ 21 + 2 ^ 42), word (per * 257), word (br * 9 * 2 ^ 32 + 0x11),
    word (key * 2 ^ 32), word (0x1000 + at_), word (0x2000 + at_), 0, 0, 0, 0, 0, 0, word w14, word w15]

/-- A periodic line of two blocks of four elements, under handle 0, whose block 1 has published `next`. -/
def twoBlocks (per : Nat) (first next : Option Nat) : Grid :=
  let blk := fun j pub => ({ j := j, pub := pub, unread := false, complete := 0, tags := [], parts := [], reported := none, stepper := none } : GBlock)
  { gid := 1, part := 0, handle := 0, desc := lineWords 8 4 per 0 7 0 (0xFFFF * 2 ^ 48) 0, blocks := [blk 0 first] ++ if per = 1 then [] else [blk 1 next] }

/-- `user` with that line. -/
def lined (per : Nat) (first next : Option Nat) : State := { user with grids := [twoBlocks per first next] }

/-- A patch of it from its element 2 on, two blocks of two elements at ratio 2, as a descriptor. -/
def patchWords (per : Nat) : List Word := lineWords 4 2 per 5 8 0x400 (2 ^ 46) 2

/-- The descriptor at address 0. -/
def patching (per : Nat) (first : Option Nat) : State :=
  withMem (lined per first none) fun s => s.putNum (.dev 0x4000000) 128 (ofBytes ((patchWords per).flatMap fun w => bytesOf 8 w.toNat))

/-- The patch before its declaration. -/
def patch (per : Nat) : Grid := { gid := 1, part := 0, handle := 65536, desc := patchWords per, blocks := [] }

theorem witness_GridPatches :
    (∀ per first, Calm (patching per first) ∧ MayAct (patching per first) true ∧ CleanX (patching per first) [0]) ∧
    ((patching 2 none).loadNum 0 128 64).toOption.isSome = true ∧ (patching 2 none).view.gang = some oneGang ∧
    (let s := patching 2 none
     let g := patch 2
     let p := twoBlocks 2 none none
     g.fieldsOk = true ∧ g.parent = 0 ∧ g.parentIn [p] = some p ∧ g.patchOk p = true ∧ g.patchLate p [g, p] s.fabric.eid = false ∧
       g.parentTokens p [g, p] s.fabric.eid = [] ∧ s.gridFits g oneGang = true ∧ p.key ≠ g.key ∧ g.sync % 32 = 0 ∧
       (s.initWords g (g.localCount s.fabric.eid)).toOption.isSome = true) ∧
    (let g := patch 2
     let p := twoBlocks 2 (some 0) none
     g.patchLate p [g, p] (patching 2 (some 0)).fabric.eid = true) ∧
    (let s := patching 1 none
     let g := patch 1
     let p := twoBlocks 1 none none
     g.fieldsOk = true ∧ g.patchOk p = true ∧ g.patchLate p [g, p] s.fabric.eid = false ∧ g.parentTokens p [g, p] s.fabric.eid ≠ [] ∧
       s.gridFits g oneGang = true ∧ s.fabric.awaits = []) :=
  ⟨fun _ _ => ⟨⟨rfl, rfl, rfl⟩, .inr ⟨rfl, Option.some_ne_none (1, 0)⟩, clean_of rfl _⟩, by decide +kernel, by decide +kernel, by decide +kernel,
    by decide +kernel, by decide +kernel⟩

/-- What a GSTEP of block 0 for step 0 finds at the one block it feeds, and whether its pushes can be read. -/
def stepping (next : Option Nat) : Option (Option Bool) × Nat × Bool :=
  let s := lined 2 none next
  let u := s.publish (twoBlocks 2 none next) 0 0
  match u.gridOf 0 1 0 with
  | some g =>
    let ds := u.fedBlocks g (g.globalOf u.fabric.eid 0)
    ((ds[0]?).map fun d => u.stepReached d.1 d.2 (0 + 1 - d.1.depth) 0, ds.length, (u.forget.pushesOf g oneGang 0 0).toOption.isSome)
  | none => (none, 0, false)

theorem witness_GridSteps :
    (∀ next, Calm (lined 2 none next) ∧ MayAct (lined 2 none next) true ∧ CleanX (lined 2 none next) [0] ∧ Runner (lined 2 none next) 0 0 1 0) ∧
    (∀ next ∈ [none, some 0], (lined 2 none next).taggedGrid 0 = .ok (twoBlocks 2 none next, oneGang, 0) ∧ Released (lined 2 none next)) ∧
    (twoBlocks 2 none none).localCount user.fabric.eid = 2 ∧ oneGang.cores[0 / max 1 (twoBlocks 2 none none).bpc]? = some 0 ∧
    stepping none = (some (some false), 1, true) ∧ stepping (some 0) = (some (some true), 1, true) ∧
    CacheRoom ((lined 2 none none).publish (twoBlocks 2 none none) 0 0) 0 1 0 fullMask user.hart.ctx.m :=
  ⟨fun _ => ⟨⟨rfl, rfl, rfl⟩, .inr ⟨rfl, Option.some_ne_none (1, 0)⟩, clean_of rfl _, ⟨rfl, rfl, rfl⟩⟩,
    fun next h => ⟨by revert next; decide +kernel, .inr (by revert next; decide +kernel)⟩, by decide +kernel, by decide +kernel, by decide +kernel, by decide +kernel,
    (show State.overFull _ _ = false by decide +kernel)⟩

/-- Every element word of the list may act, with VL = 8 and with VL = 0, on clean registers. -/
theorem acting_word : ∀ i ∈ elementWords, ∀ vl ∈ [0, 8], (∃ p w b, AtWord i p w b (lane user i vl 0)) ∧ Clean (lane user i vl 0) := by
  intro i hi vl hv
  have h := List.all_eq_true.mp test_words_act i hi
  simp only [Bool.and_eq_true] at h
  simp only [List.mem_cons, List.not_mem_nil, or_false] at hv
  rcases hv with rfl | rfl
  · exact ⟨atWord_of h.2, rfl⟩
  · exact ⟨atWord_of h.1, rfl⟩

/-- `lane` with another base in x16. -/
def laneAt (s : State) (i : Instr) (vl base : Nat) : State :=
  (lane s i vl 0).onFocus fun h => { h with blocks := h.blocks.map fun b => { b with snap := word base :: b.snap.tail } }

/-- The block `lane` puts in flight. -/
def laneBlock (s : State) : Block := s.hart.blocks.headD unfetched

/-- With a strip open, as VSQ.COMMIT finds it. -/
def striplane (i : Instr) (vl : Nat) : State :=
  let s := lane user i vl 0
  s.onFocus fun h => { h with ctx := { h.ctx with strip := some (h.ctx.checkpoint 0x20) } }

theorem witness_BlockControl : ∀ i ∈ [Instr.vnop (plainWord 0), .vpref { vw 10 with vd := 0, va := 0, vb := 0 }, .vstop (plainWord 0),
    .mstart (plainWord 0), .mstop (plainWord 0), .vsqDrop (plainWord 0)],
    (∃ p w b, AtWord i p w b (lane user i 8 0)) ∧ Clean (lane user i 8 0) ∧ ∃ u, (lane user i 8 0).commitAll = .ok u := by
  intro i hi
  have h : i ∈ elementWords ∧ (lane user i 8 0).commitAll = .ok (lane user i 8 0) := by
    revert i
    decide +kernel
  exact ⟨(acting_word i h.1 8 (by simp)).1, rfl, _, h.2⟩

/-- The pending store of `stripped`. -/
def onePend : Pend :=
  { idx := 0, addr := 0x40, bytes := [(.dev 0x4000040, 7, 255)], lines := [], remote := none, poisoned := false, whole := [], tiers := [] }

/-- `user` with that store pending, in an open strip before VSQ.COMMIT, or with no strip before a block's fault. -/
def committing (strip : Bool) : State :=
  let s := if strip then striplane (.vsqCommit (plainWord 0)) 8 else lane user (.vsqCommit (plainWord 0)) 8 0
  s.onFocus fun h => { h with pend := [onePend] }

theorem noRecords_of {s : State} (h : ((List.range 16).all fun p => s.partState p != 3) = true)
    (hq : ((List.range 4).all fun q => (s.quad q).slots.isEmpty && (s.quad q).rlhead.toList.all fun x => x.toNat == 0) = true) : NoRecords s := by
  simp only [List.all_eq_true, List.mem_range, bne_iff_ne, Bool.and_eq_true, List.isEmpty_iff, beq_iff_eq] at h hq
  exact ⟨h, hq⟩

theorem witness_StoreCommits :
    (∀ s ∈ [stripped, committing true, committing false], MemoriesWf s ∧ NothingLoops s ∧ NoRecords s ∧ s.hart.pend = [onePend] ∧
      onePend.remote = none ∧ onePend.poisoned = false ∧ onePend.tiers = [] ∧ (onePend.bytes.map (·.1)).Nodup ∧
      (∀ e ∈ onePend.bytes, Plain s e.1) ∧ Unheld s (onePend.bytes.map (·.1))) ∧
    stripped.hart.blocks = [] ∧ atWord (.vsqCommit (plainWord 0)) (committing true) = true ∧ (committing true).hart.ctx.strip ≠ none ∧
    (laneBlock (committing true)).vl = 8 ∧ MayTrap (committing false) ∧ (committing false).hart.ctx.strip = none ∧
    (committing false).hart.unchecked = [] ∧ (committing false).hart.blocks.length = 1 := by
  refine ⟨fun s hs => ?_, by decide +kernel, by decide +kernel, by decide +kernel, by decide +kernel, .inl rfl, rfl, rfl, rfl⟩
  have hs' : storable s [.dev 0x4000040] = true ∧
      (s.fabric.sent = [] ∧ s.combFor s.fabric.eid = false ∧ s.storeQueued s.fabric.eid = false ∧ s.hart.pend = [onePend]) ∧
      ((List.range 16).all fun p => s.partState p != 3) = true ∧
      ((List.range 4).all fun q => (s.quad q).slots.isEmpty && (s.quad q).rlhead.toList.all fun x => x.toNat == 0) = true := by
    revert s
    decide +kernel
  obtain ⟨h0, hf, h1, h2⟩ := hs'
  have h := storable_of h0
  have hn := noRecords_of h1 h2
  exact ⟨h.wf, ⟨hf.2.1, hf.2.2.1, fun r hr => by simp [hf.1] at hr⟩, hn, hf.2.2.2, rfl, rfl, rfl, by decide,
    fun e he => h.plain e.1 (by simp [onePend] at he; simp [he]), h.free⟩

theorem witness_IntegerElements : ∀ i ∈ [Instr.vadd (vw 10), .vmulh (vw 10), .vsadd (vw 8), .vssub (vw 12), .vmin (vw 12), .vneg { vw 11 with vb := 0 },
    .vshl (vw 10), .vshr { vw 10 with vb := 0, fn := 0x5F }, .vsra (vw 9), .vand (vw 10), .vor (vw 10), .vxor (vw 10), .vclz { vw 10 with vb := 0 },
    .vpopc { vw 10 with vb := 0 }, .vnot { vw 10 with vb := 0 }, .vabs { vw 10 with vb := 0 }],
    (∃ p w b, AtWord i p w b (lane user i 8 0)) ∧ Clean (lane user i 8 0) := by
  intro i hi
  have h : i ∈ elementWords := by
    revert i
    decide +kernel
  exact acting_word i h 8 (by simp)

theorem witness_FloatElements : isFloat (etypeOf (vw 1).ty) = true ∧ ∀ i ∈ [Instr.vsub (vw 1), .vmul (vw 15), .vfms { vw 8 with vc := 4 },
    .vfnma { vw 1 with vc := 4, rm := 7 }, .vdiv (vw 0), .vsqrt { vw 1 with vb := 0 }, .vrsqrt { vw 1 with vb := 0 }, .vrcp { vw 1 with vb := 0 },
    .vexp2 { vw 1 with vb := 0 }, .vlog2 { vw 1 with vb := 0 }, .vmax (vw 2)],
    (∃ p w b, AtWord i p w b (lane user i 8 0)) ∧ Clean (lane user i 8 0) := by
  refine ⟨by decide +kernel, fun i hi => ?_⟩
  have h : i ∈ elementWords := by
    revert i
    decide +kernel
  exact acting_word i h 8 (by simp)

theorem witness_ConvertElements : ∀ i ∈ [Instr.vcvt { vw 1 with vb := 0, fn := 10 }, .vscale { vw 1 with fn := 4 }],
    (∃ p w b, AtWord i p w b (lane user i 8 0)) ∧ Clean (lane user i 8 0) := by
  intro i hi
  have h : i ∈ elementWords := by
    revert i
    decide +kernel
  exact acting_word i h 8 (by simp)

/-- Encodings of each sort the exact results of the elements and of the conversions speak of: finite ones of both signs, a zero, the
infinities, both NaNs, integers in and past the range of a narrower one, blocks scaled and scaled by no number. -/
theorem witness_ConvertElements_values :
    fread .f32 false 0x3F800000 = .fin false (2 ^ 23) (-23) ∧ fread .f32 false 0xBF800000 = .fin true (2 ^ 23) (-23) ∧
    fread .f32 false 0 = .fin false 0 (-149) ∧ fread .f32 false 0x7FC00000 = .nan false ∧ fread .f32 false 0x7F800001 = .nan true ∧
    fread .f32 false 0x7F800000 = .inf false ∧ fread .f32 false 0xFF800000 = .inf true ∧
    scalePair .e4m3 .f32 false = true ∧ scalePair .f32 .e5m2 true = true ∧ fread .e4m3 false 0x38 = .fin false 8 (-3) ∧
    smallFloat .e4m3 = true ∧ smallFloat .f32 = false ∧
    intOf .i64 (5 % 2 ^ 64) = 5 ∧ intOf .i64 (300 % 2 ^ 64) > 2 ^ 7 - 1 ∧ intOf .i64 ((2 ^ 64 - 300) % 2 ^ 64) < -2 ^ 7 ∧ isFloat .i64 = false ∧
    (BitVec.ofNat 32 0x7FFFFFFF).toInt + 1 * ([((1, 0), (1, 0))].map fun (p : (Nat × Nat) × (Nat × Nat)) =>
      intOf .i8 (p.1.1 % 2 ^ 8) * intOf .i8 (p.2.1 % 2 ^ 8)).sum ≥ 2 ^ 31 ∧
    (BitVec.ofNat 32 0x80000000).toInt + -1 * ([((1, 0), (1, 0))].map fun (p : (Nat × Nat) × (Nat × Nat)) =>
      intOf .i8 (p.1.1 % 2 ^ 8) * intOf .i8 (p.2.1 % 2 ^ 8)).sum < -2 ^ 31 ∧
    fdecode .bf16 (convert .f32 .bf16 { rm := 0, daz := false, ftz := false, rnd := 0 } false 0x7F7FFFFF).1 = .inf false ∧
    fdecode .bf16 (convert .f32 .bf16 { rm := 0, daz := false, ftz := false, rnd := 0 } false 0x7FC00000).1 = .nan false := by
  decide +kernel

/-- Operands of the rounded results: a sum, a product and a quotient that are positive, a sum that is zero, an integer result. -/
theorem witness_ExactRounding :
    (let value := fun (neg : Bool) (m : Nat) (e : ℤ) => (if neg then (-1 : ℝ) else 1) * ((m : ℝ) * 2 ^ e)
     value false 3 (-1) + value true 1 0 = 1 / 2 ∧ value false 3 (-1) + value true 3 (-1) = 0 ∧
     value false 3 0 * value false 1 0 + value true 1 0 = 2 ∧ value false 5 (-1) = 5 / 2 ∧ value true 1 2 = -4 ∧ (0 : ℝ) < 1 / 2 ∧ (0 : ℝ) < 2) ∧
    (∀ g, FVal.inf false ≠ .nan g) ∧ EType.f32 ∈ [EType.f64, .f32, .f16, .bf16] ∧ isFloat .f32 = true ∧ isFloat .i32 = false ∧
    (⟨0, false, false, 0⟩ : FpEnv).rm ≤ 4 :=
  ⟨⟨by norm_num, by norm_num, by norm_num, by norm_num, by norm_num, by norm_num, by norm_num⟩, by simp, by decide, by decide, by decide, by decide⟩

theorem witness_MaskWords : ∀ i ∈ .vcmp { vw 10 with fn := 5 } :: wordsMask, ∀ vl ∈ [0, 8],
    (∃ p w b, AtWord i p w b (lane user i vl 0)) ∧ Clean (lane user i vl 0) := by
  intro i hi
  have h : i ∈ elementWords := by
    revert i
    decide +kernel
  exact acting_word i h

/-- VMERGE.F over an element 2 that its mask chooses and whose FMASK bit is set. -/
def deferring : State :=
  (lane user (.vmergeF { vw 10 with vc := 4 }) 8 0).onFocus fun h => { h with ctx := { h.ctx with fmask := 4, k := h.ctx.k.set 4 4 } }

theorem witness_MoveWords : (∀ i ∈ wordsMove, (∃ p w b, AtWord i p w b (lane user i 8 0)) ∧ Clean (lane user i 8 0)) ∧
    (∀ i, (laneBlock (lane user i 8 0)).bad = []) ∧ bit (lane user (.vmergeF { vw 10 with vc := 4 }) 8 0).hart.ctx.fmask 0 = false ∧
    atWord (.vmergeF { vw 10 with vc := 4 }) deferring = true ∧ NoStrip deferring ∧ MayTrap deferring ∧ bit (deferring.hart.ctx.kreg 4) 2 = true ∧
    bit deferring.hart.ctx.fmask 2 = true ∧ (∀ j < 2, ¬ bit (deferring.hart.ctx.kreg 4) j = true) ∧
    (let i : Instr := .vmovx { vw 10 with vb := 0 }
     let s := (lane user i 8 0).onFocus fun h => { h with ctx := { h.ctx with poison := [{ kind := 0, num := 2, word := 0 }, xWord 9] } }
     atWord i s = true ∧ 0 < (laneBlock s).vl ∧ (Fin.ofNat 32 1 : Reg) ≠ 0 ∧ { kind := 0, num := 2, word := 0 } ∈ s.hart.ctx.poison) := by
  refine ⟨fun i hi => acting_word i ?_ 8 (by simp), fun _ => rfl, by decide +kernel, by decide +kernel, ⟨rfl, rfl⟩, .inl rfl, by decide +kernel,
    by decide +kernel, by decide +kernel, by decide +kernel⟩
  simp [elementWords, hi]

/-- A reduction or scan with CONT = 1 over partials of another, of the type code `ty` and the operation `op`. -/
def goingOn (i : Instr) (ty op : Nat) : State :=
  (lane user i 8 0).onFocus fun h => { h with ctx := { h.ctx with
    rstat := word (2 ^ 63 + ty * 2 ^ 52 + op * 2 ^ 48 + 3), racc := Vector.replicate 32 5 } }

/-- The words with CONT = 1, and their operations. -/
def continued : List (Instr × Nat) :=
  let w := { vw 10 with vb := 0, fn := 2 }
  [(.vredsum w, 0), (.vredmax w, 1), (.vredmin w, 2), (.vscanAdd w, 3), (.vscanMax w, 4)]

theorem witness_Reductions :
    (∀ i ∈ wordsReduce.take 5, (∃ p w b, AtWord i p w b (lane user i 8 0)) ∧ Clean (lane user i 8 0) ∧ 0 < (lane user i 8 0).lanes ∧
      (∃ p w b, AtWord i p w b (lane user i 0 0))) ∧
    (∀ r ∈ continued, ∀ op, Clean (goingOn r.1 10 op) ∧ NoStrip (goingOn r.1 10 op) ∧ MayTrap (goingOn r.1 10 op)) ∧
    (∀ r ∈ continued, atWord r.1 (goingOn r.1 10 r.2) = true ∧ bit (goingOn r.1 10 r.2).hart.ctx.rstat.toNat 63 = true ∧
      bits (goingOn r.1 10 r.2).hart.ctx.rstat.toNat 55 52 = 10 ∧ bits (goingOn r.1 10 r.2).hart.ctx.rstat.toNat 51 48 = r.2 ∧
      atWord r.1 (goingOn r.1 9 r.2) = true ∧ bits (goingOn r.1 9 r.2).hart.ctx.rstat.toNat 55 52 ≠ 10) ∧
    (∀ j < 32, ((goingOn (.vredsum (vw 10)) 10 0).hart.ctx.racc.toList.getD j 0).toNat < 2 ^ 32) ∧
    actList (goingOn (.vscanAdd (vw 10)) 9 3) (laneBlock (goingOn (.vscanAdd (vw 10)) 9 3)) { vw 10 with vb := 0, fn := 2 } ≠ [] ∧
    (let w := { vw 10 with vb := 0, fn := 2, k := 1 }
     atWord (.vscanAdd w) (goingOn (.vscanAdd w) 9 3) = true ∧
       actList (goingOn (.vscanAdd w) 9 3) (laneBlock (goingOn (.vscanAdd w) 9 3)) w = []) := by
  refine ⟨fun i hi => ?_, fun _ _ _ => ⟨rfl, ⟨rfl, rfl⟩, .inl rfl⟩, by decide +kernel, by decide +kernel, by decide +kernel, by decide +kernel⟩
  have h : i ∈ elementWords ∧ 0 < (lane user i 8 0).lanes := by
    revert i
    decide +kernel
  exact ⟨(acting_word i h.1 8 (by simp)).1, rfl, h.2, (acting_word i h.1 0 (by simp)).1⟩

/-- The words of a local load and their addresses with x16 = 64 and x17 = 16. -/
def loads : List (Instr × (Nat → Nat)) :=
  [(.vld { vw 10 with va := 0, vb := 0 }, fun e => 64 + 4 * e), (.vldff { vw 10 with va := 0, vb := 0 }, fun e => 64 + 4 * e),
    (.vlds { vw 10 with va := 0, vb := 1, xs := true }, fun e => 64 + 16 * e), (.vldx { vw 10 with va := 0 }, fun _ => 64)]

/-- The words of a local store and their addresses. -/
def stores : List (Instr × (Nat → Nat)) :=
  [(.vst { vw 10 with vd := 0, vb := 0 }, fun e => 64 + 4 * e), (.vsts { vw 10 with vd := 0, vb := 1, xs := true }, fun e => 64 + 16 * e),
    (.vstx { vw 10 with vd := 0 }, fun _ => 64)]

/-- A step-tagged access of elements outside every frame of its grid. -/
def tagged (i : Instr) (w : EWord) : State × Except Stop (Grid × Gang × Nat) :=
  let s := lane (gridded (some 0) 1) i 8 0
  (s, s.tagOf (laneBlock s) w)

theorem witness_VectorLoads :
    (∀ r ∈ loads, atWord r.1 (lane user r.1 8 0) = true ∧ (lane user r.1 8 0).hart.pend = [] ∧
      ∀ e < 8, found (lane user r.1 8 0) (lane user r.1 8 0).view (r.2 e) 4 1 false = true) ∧
    (let w := { vw 10 with va := 0, vb := 1, xs := true }
     let s := (tagged (.vldg w) w).1
     atWord (.vldg w) s = true ∧ s.hart.run = .running ∧ (tagged (.vldg w) w).2 = .ok (oneGrid (some 0) 1, oneGang, 16) ∧
     ∀ e < 8, (oneGrid (some 0) 1).loadTest oneGang 0 0 (selAddr (laneBlock s) w e) 16 = .plain) ∧
    (let i : Instr := .vldff { vw 10 with va := 0, vb := 0 }
     let s := laneAt user i 8 0xFFF8
     atWord i s = true ∧ found s s.view 0xFFF8 4 1 false = true ∧ found s s.view 0xFFFC 4 1 false = true ∧
     (s.locate s.view 0x10000 4 1 false).toOption = none) ∧
    (let i : Instr := .vld { vw 10 with va := 0, vb := 0, fn := 0x80 }
     let s := laneAt user i 8 0xFFF8
     atWord i s = true ∧ statusBit s.hart.sstatus 59 = false ∧ found s s.view 0xFFF8 4 1 false = true ∧ found s s.view 0xFFFC 4 1 false = true ∧
     ∀ e < 6, (match s.locate s.view (0x10000 + 4 * e) 4 1 false with | .error f => f.sub != 65535 | .ok _ => false) = true) := by
  decide +kernel

theorem witness_VectorFault :
    let i : Instr := .vld { vw 10 with va := 0, vb := 0 }
    let s := laneAt user i 8 0xFFF8
    let t := s.onFocus fun h => { h with ctx := { h.ctx with strip := some (h.ctx.checkpoint 0x20) } }
    (atWord i s = true ∧ NoStrip s ∧ MayTrap s ∧ Clean s ∧ s.hart.pend = []) ∧ atWord i t = true ∧ t.hart.ctx.strip ≠ none ∧
    ∀ u ∈ [s, t], found u u.view 0xFFF8 4 1 false = true ∧ found u u.view 0xFFFC 4 1 false = true ∧
      (match u.locate u.view 0x10000 4 1 false with | .error f => decide (f.sub < 65535) | .ok _ => false) = true :=
  ⟨⟨by decide +kernel, ⟨rfl, rfl⟩, .inl rfl, rfl, rfl⟩, by decide +kernel, Option.some_ne_none _, by decide +kernel⟩

/-- `lane` with a base in x16 and a tag or a stride in x17. -/
def tagAt (s : State) (i : Instr) (base tag : Nat) : State :=
  (lane s i 8 0).onFocus fun h => { h with blocks := h.blocks.map fun b => { b with snap := [word base, word tag] ++ b.snap.drop 2 } }

/-- The fields of a VLDG whose tag register is x17. -/
def tagWord : EWord := { vw 10 with va := 0, vb := 1, xs := true }

/-- The line of two blocks, block 0 at step 0, with or without FAULT. -/
def policy (f : Nat) : Grid :=
  let g := twoBlocks 2 (some 0) none
  { g with desc := (g.desc.headD 0 ||| word (f * 2 ^ 48)) :: g.desc.tail }

/-- An element-0 access of a VLDG or VSTG of step `st` at the frame of block 0. -/
def atGhost (i : Instr) (f st : Nat) : State := tagAt { user with grids := [policy f] } i 0x1000 st

/-- With a strip open. -/
def inStrip (s : State) : State := s.onFocus fun h => { h with ctx := { h.ctx with strip := some (h.ctx.checkpoint 0x20) } }

theorem witness_TaggedTraps :
    (∀ i base tag, Clean (tagAt user i base tag) ∧ NoStrip (tagAt user i base tag) ∧ MayTrap (tagAt user i base tag) ∧
      Runner (tagAt user i base tag) 0 0 1 0) ∧
    (∀ i ∈ [Instr.vldg tagWord, .vstg { tagWord with vd := 0 }], ∀ s ∈ [tagAt user i 0x40 0, inStrip (tagAt user i 0x40 0)],
      atWord i s = true ∧ actList s (laneBlock s) tagWord ≠ [] ∧ s.gridOf (s.partOf 0) 1 0 = none) := by
  refine ⟨fun _ _ _ => ⟨rfl, ⟨rfl, rfl⟩, .inl rfl, ⟨rfl, rfl, rfl⟩⟩, by decide +kernel⟩

theorem witness_TaggedWindows :
    (∀ f ∈ [0, 1], ∀ st ∈ [0, 1], ∀ s ∈ [atGhost (.vldg tagWord) f st, inStrip (atGhost (.vldg tagWord) f st)],
      atWord (.vldg tagWord) s = true ∧ s.hart.run = .running ∧ s.tagOf (laneBlock s) tagWord = .ok (policy f, oneGang, st) ∧
      (∀ e < 8, found s s.view (selAddr (laneBlock s) tagWord e) 4 1 false = true ∧
        (st = 0 → (policy f).loadTest oneGang 0 0 (selAddr (laneBlock s) tagWord e) st ≠ .window)) ∧
      (policy f).loadTest oneGang 0 0 (selAddr (laneBlock s) tagWord 0) st = if st = 0 then .stale 0 else .window) ∧
    (policy 1).faultPolicy = true ∧ (policy 0).faultPolicy = false ∧
    (let s := atGhost (.vstg { tagWord with vd := 0 }) 0 1
     atWord (.vstg { tagWord with vd := 0 }) s = true ∧ found s s.view (selAddr (laneBlock s) tagWord 0) 4 1 true = true ∧
      (policy 0).storeTest oneGang 0 0 (selAddr (laneBlock s) tagWord 0) 1 = false) ∧
    (let i : Instr := .vldff { vw 10 with va := 0, vb := 0 }
     let s := laneAt user i 8 0x10000
     atWord i s = true ∧ s.hart.ctx.vstart = 0 ∧
      (match s.locate s.view 0x10000 4 1 false with | .error f => decide (f.sub < 65535) | .ok _ => false) = true) := by
  decide +kernel

theorem witness_VectorStores :
    (∀ r ∈ stores, atWord r.1 (lane user r.1 8 0) = true ∧
      ∀ e < 8, found (lane user r.1 8 0) (lane user r.1 8 0).view (r.2 e) 4 1 true = true) ∧
    (let w := { vw 10 with vd := 0, vb := 1, xs := true }
     let s := (tagged (.vstg w) w).1
     atWord (.vstg w) s = true ∧ (tagged (.vstg w) w).2 = .ok (oneGrid (some 0) 1, oneGang, 16) ∧
     ∀ e < 8, (oneGrid (some 0) 1).storeTest oneGang 0 0 (selAddr (laneBlock s) w e) 16 = true) := by
  decide +kernel

/-- Remote forms: endpoint 64 and the base 64 in x16, units held for it. -/
def faraway (i : Instr) (vl : Nat) : State := lane { user with fabric := { user.fabric with units := [(64, 8)] } } i vl 0

/-- The premises of a remote load. -/
def remoteLoadMet (i : Instr) (w : EWord) (kind : Nat) : Bool :=
  let s := faraway i 8
  let v := s.request (laneBlock s) w kind
  atWord i s && decide (v.vl ≤ 256 ∧ 1 + (vecPayload v + 63) / 64 ≤ 5) && (vecBytes v).any (fun a => (s.ownByte 64 a none).isNone)
    && !s.combFor 64 && !s.storeInFlight 64 (vecBytes v) && !s.storeQueued 64 && s.fabric.waits.isEmpty
    && decide (5 ≤ s.fabric.unitsFor 64) && !s.fabric.heldSelf 64

theorem witness_RemoteVectors :
    remoteLoadMet (.vlds { vw 10 with va := 0, vb := 1, xs := true, fn := 0x100 }) { vw 10 with va := 0, vb := 1, xs := true, fn := 0x100 } 1 = true ∧
    remoteLoadMet (.vldx { vw 10 with va := 0, fn := 0x100 }) { vw 10 with va := 0, fn := 0x100 } 2 = true ∧
    (∀ r ∈ [(Instr.vsts { vw 10 with vd := 0, vb := 1, xs := true, fn := 0x100 }, { vw 10 with vd := 0, vb := 1, xs := true, fn := 0x100 }, 3),
        (.vstx { vw 10 with vd := 0, fn := 0x100 }, { vw 10 with vd := 0, fn := 0x100 }, 4)],
      (∀ vl ∈ [8, 128], atWord r.1 (faraway r.1 vl) = true) ∧
      1 + (vecPayload ((faraway r.1 8).request (laneBlock (faraway r.1 8)) r.2.1 r.2.2) + 63) / 64 ≤ 5 ∧
      5 < 1 + (vecPayload ((faraway r.1 128).request (laneBlock (faraway r.1 128)) r.2.1 r.2.2) + 63) / 64) := by
  decide +kernel

theorem witness_TileWords :
    (∀ i ∈ wordsMatrix, (∃ p w b, AtWord i p w b (lane user i 8 0)) ∧ (lane user i 8 0).hart.ctx.m = true ∧ (lane user i 8 0).hart.pend = []) ∧
    (∀ i ∈ wordsMatrix, atWord i ((lane user i 8 0).onFocus fun h => { h with ctx := { h.ctx with m := false } }) = true) ∧
    (∀ r ∈ [(Instr.mld { vw 10 with va := 0, vb := 1, xs := true }, false), (.mst { vw 10 with vd := 0, vb := 1, xs := true }, true)],
      ∀ i < 4, ∀ j < 8, found (lane user r.1 8 0) (lane user r.1 8 0).view (64 + 16 * i + 4 * j) 4 1 r.2 = true) ∧
    (let i : Instr := .mlatch { vw 3 with vd := 0, va := 0, vb := 1, xs := true }
     ∀ q ∈ [0, 1, 63, 127], ∀ j < 8, found (lane user i 8 0) (lane user i 8 0).view (64 + 16 * q + 2 * j) 2 1 false = true) := by
  refine ⟨fun i hi => ⟨(acting_word i ?_ 8 (by simp)).1, rfl, rfl⟩, by decide +kernel, by decide +kernel, by decide +kernel⟩
  simp [elementWords, hi]

/-- `user` as gang core 0 of eight with a ring, its scratchpad masks of twelve ones at 0, 16, 32 and 48. -/
def ring : State :=
  let s := { user with gangs := [{ oneGang with cores := [0, 1, 2, 3, 4, 5, 6, 7], mring := true }] }
  (((s.putNum (.spad 0 0) 8 0xFFF).putNum (.spad 0 16) 8 0xFFF).putNum (.spad 0 32) 8 0xFFF).putNum (.spad 0 48) 8 0xFFF

/-- A source of A elements at the self window is found and clean. -/
def source (s : State) (va n i q : Nat) : Bool :=
  match s.matSource va n i q with
  | .ok p => !s.loopAhead p.locs && p.locs.all fun l => !s.seenBad l
  | .error _ => false

theorem witness_OuterProducts :
    (∀ r ∈ [Instr.opa { vw 3 with va := 0, vb := 1, xs := true }, .ops { vw 3 with va := 0, vb := 1, xs := true }],
      atWord r (laneAt ring r 8 (2 ^ 56)) = true ∧ (laneAt ring r 8 (2 ^ 56)).hart.ctx.m = true ∧
      ∀ i < 4, ∀ q < 2, source (laneAt ring r 8 (2 ^ 56)) (2 ^ 56 + 16 * i + 2 * q) 2 i q = true) ∧
    (let i : Instr := .opaSp { vw 8 with va := 0, vb := 1, xs := true }
     let s := laneAt ring i 8 (2 ^ 56)
     atWord i s = true ∧ ∀ k < 4, source s (2 ^ 56 + 16 * k) 8 k 0 = true ∧ s.num (.spad 0 (16 * k)) 8 % 2 ^ 48 = s.num (.spad 0 (16 * k)) 8 ∧
       (List.range 48).countP (fun q => bit (s.num (.spad 0 (16 * k)) 8) q) = 12 ∧ ∀ r < 12, source s (2 ^ 56 + 16 * k + 8 + r) 1 k r = true) ∧
    (let s := (lane ring (.mrot (plainWord 0)) 8 0).onFocus fun h => { h with ctx := { h.ctx with strip := some (h.ctx.checkpoint 0) } }
     atWord (.mrot (plainWord 0)) s = true ∧ s.focus = .hart 0 0 ∧ s.ringOk = true ∧ (s.hartOf (.hart 1 0)).run ≠ .ring ∧
     ∀ n < 8, n ≠ 0 → ((((List.range 8).drop 1).foldl (fun t n => t.onHart (.hart n 0) fun h => { h with run := .ring }) s).hartOf (.hart n 0)).run
       = .ring) := by
  decide +kernel

theorem witness_MatrixTraps :
    (∀ r ∈ [Instr.opa { vw 3 with va := 0, vb := 1, xs := true }, .ops { vw 3 with va := 0, vb := 1, xs := true },
        .opaSp { vw 8 with va := 0, vb := 1, xs := true }],
      ∀ s ∈ [laneAt ring r 8 64, inStrip (laneAt ring r 8 64)],
        atWord r s = true ∧ s.hart.ctx.m = true ∧ (laneBlock s).tl = 4 ∧ actList s (laneBlock s) { vw 3 with xs := true } ≠ []) ∧
    (let w : EWord := { vw 8 with va := 0, vb := 1, xs := true, fn := 1 }
     let s := laneAt ring (.opaSp w) 8 (2 ^ 56)
     atWord (.opaSp w) s = true ∧ actList s (laneBlock s) w ≠ [] ∧ (List.range 48).countP (fun q => bit (s.num (.spad 0 0) 8) q) ≠ 16 ∧
      ∀ k < 4, source s (2 ^ 56 + 16 * k) 8 k 0 = true ∧ ∀ r < 16, source s (2 ^ 56 + 16 * k + 8 + r) 1 k r = true) ∧
    (let s := lane user (.mrot (plainWord 0)) 8 0
     atWord (.mrot (plainWord 0)) s = true ∧ s.hart.ctx.m = true ∧ s.ringOk = false) := by
  decide +kernel

/-- A slot whose writing was broken off is refused; a whole one is valid as the free answers of the two signature checks are (log entry 5). -/
theorem witness_ModuleManagement : 135 < Config.cores / 8 ∧ State.reset.eft.booted = true ∧ State.reset.eft.active = 0 ∧
    slotValid { State.reset.eft.slotA with complete := false } State.reset.eft.fused 0 = false ∧
    (∀ f : FwSlot, f.complete = true → f.svn < 2 ^ 64 → f.hashes = (f.payloads.map fun p => Config.sha384 p.2) →
      slotValid f (Config.sha384 (bytesOf 96 f.ecdsaKey), Config.sha384 (bytesOf 56 f.lmsKey)) 0 =
        (Config.ecdsaVerifies f.ecdsaKey (manifestOf f) f.ecdsa && Config.lmsVerifies f.lmsKey (manifestOf f) f.lms)) ∧
    State.reset.eft.steps 0 = 0 ∧ State.reset.eft.flowLow = none ∧ State.reset.eft.sensors.lookup 150 = some 40 ∧ State.reset.eft.lowered = [] ∧
    State.reset.eft.tripped = false ∧ ({ State.reset.eft with tripped := true } : Eft).tripped = true ∧
    ({ State.reset.eft with quadSteps := State.reset.eft.quadSteps.set 0 1 } : Eft).steps (5 / 34) = 1 ∧
    ({ State.reset with eft := { State.reset.eft with booted := false } } : State).eft.booted = false :=
  ⟨by decide, rfl, rfl, rfl, fun f h1 h3 h2 => by simp [slotValid, h1, h2, show f.svn < 18446744073709551616 from h3], by decide +kernel, rfl, by decide +kernel, rfl, rfl, rfl,
    by decide +kernel, rfl⟩

/-- A port in state `st` whose session stands or not. -/
def ported (st spdm : Nat) (up : Bool) : State :=
  (withMem State.reset fun s => s.setPortState 15 st).setPort 15 { Port.fresh with spdm := spdm, established := up, retrains := 2 }

/-- The four algorithms of R382. -/
def fourAlgorithms : List SpdmAlgorithm := [.aes256gcm, .ecdsaP384, .secp384r1, .sha384]

theorem witness_PortWords :
    (∀ r ∈ [(ported 0 0 false, 0), (ported 1 0 false, 1), (ported 1 8 false, 1), (ported 1 9 true, 1), (ported 2 9 true, 2), (ported 3 0 false, 3)],
      r.1.portState 15 = r.2 ∧ r.1.mem.wf resetByte = true ∧ r.1.host.wf zeroByte = true ∧ r.1.cores = [] ∧ r.1.portService 15 = true) ∧
    ((ported 1 8 false).port 15).spdm = 8 ∧ ((ported 1 9 true).port 15).established = true ∧
    (∀ x ∈ [SpdmAlgorithm.ecdsaP384, .sha384, .secp384r1, .aes256gcm], x ∈ fourAlgorithms) ∧
    bits ((ported 2 9 true).dev8 (portWord 15 0)) 12 0 ≠ 5 % 8192 ∧
    (let t := (ported 2 9 true).setPort 15 { Port.fresh with established := true, send := { key := 0, salt := 0, flits := 2 ^ 47 } }
     2 ^ 47 ≤ (t.port 15).send.flits ∧ (t.port 15).established = true) ∧
    (let t := (ported 2 9 true).setPort 15 { Port.fresh with established := true, recv := { key := 0, salt := 0, flits := 2 ^ 48 - 1 } }
     t.portState 15 = 2 ∧ 2 ^ 48 ≤ (t.port 15).recv.flits + 1) ∧
    ((ported 0 0 false).setHealth 3 15 55 52 1).portService 15 = false ∧
    (State.reset.hostOn 1 = true ∧ storable State.reset ((List.range 2).map fun k => Loc.dev (0x4000000 + k)) = true ∧ State.reset.hostWrites = []) ∧
    bits State.reset.eft.portModes 3 2 ≤ 1 ∧ (∀ st spdm up, Apart (ported st spdm up)) ∧ (ported 1 6 false).eft.booted = true ∧
    ((ported 1 6 false).port 15).spdm = 6 ∧ ({ State.reset.eft with booted := false } : Eft).booted = false :=
  by
    repeat' refine And.intro ?_ ?_
    all_goals first | exact fun _ _ _ => apart_of rfl | decide +kernel

/-- A lease in progress. -/
def lease (kind i cid : Nat) : MoltLease := { kind := kind, index := i, testing := true, passes := 0, cid := cid, spare := 0 }

/-- Port 15 in RUN with a request on its way over it. -/
def travelling : State :=
  let s := withMem user fun s => s.setPortState 15 2
  { s with fabric := { s.fabric with
    sent := [{ rid := 5, way := .port 15, ep := 9, cid := 0, part := 0, seq := 0, op := .load 0x40 8, cont := .store 0 1 0 0x40 }] } }

theorem witness_SilentErrors :
    (let s := user.onFocus fun h => { h with unchecked := [{ lane := 0, group := [{ kind := 0, num := 1, word := 0 }], flags := 1, base := 0, leases := [] }] }
     s.hart.unchecked.length = 1 ∧ s.laneIndex 0 = some 0 ∧ storable s [] = true) ∧
    user.hart.unchecked = [] ∧ (isResource 3 15 = true ∧ user.pinnedScore 3 15 = false) ∧
    (user.moltLease 3 15 = none ∧ user.scopeBusy 3 15 = false ∧ user.inState 3 15 = 0 ∧ user.portState 15 ≠ 2) ∧
    (travelling.moltLease 3 15 = none ∧ travelling.scopeBusy 3 15 = false ∧ travelling.inState 3 15 = 0 ∧ travelling.portState 15 = 2 ∧
      travelling.fabric.sent.map (·.way) = [.port 15] ∧ storable travelling [] = true) ∧
    (isResource 4 0 = true ∧ user.moltLease 4 0 = none ∧ user.scopeBusy 4 0 = false ∧ user.standInOf 0 = some 1) ∧
    (isResource 1 1151 = true ∧ user.moltLease 1 1151 = none ∧ user.scopeBusy 1 1151 = false ∧ user.inState 1 1151 = 3) ∧
    isResource 2 5 = true ∧
    (let s := { user with molt := { user.molt with leases := [lease 4 0 0] } }; s.moltLease 4 0 = some (lease 4 0 0) ∧ s.suspended (lease 4 0 0) = false) ∧
    (let s := { user.setHealth 1 1151 63 56 160 with molt := { user.molt with leases := [lease 1 1151 2047] } }
     s.moltLease 1 1151 = some (lease 1 1151 2047) ∧ s.suspended (lease 1 1151 2047) = false ∧ 160 ≤ s.score 1 1151) ∧
    (let s := { user.setPartState 0 2 with molt := { user.molt with leases := [lease 1 3 0] } }
     s.moltLease 1 3 = some (lease 1 3 0) ∧ s.suspended (lease 1 3 0) = true) ∧
    (let s := { user.setHealth 6 0 63 56 160 with molt := { user.molt with leases := [lease 6 0 0] } }
     s.moltLease 6 0 = some (lease 6 0 0) ∧ s.suspended (lease 6 0 0) = false ∧ 160 ≤ s.score 6 0) ∧
    (isResource 6 0 = true ∧ user.molt.lent = [] ∧ user.rowSettled 6 0 = false ∧ (user.freeSpares 0).head? = some 0) ∧
    Apart user ∧ Apart travelling :=
  by
    repeat' refine And.intro ?_ ?_
    all_goals first | exact apart_of rfl | decide +kernel

/-- Port 15 in RUN. -/
def joined : State := withMem user fun s => s.setPortState 15 2

/-- Endpoint 9 with its BIND entry to partition 0, writable (R379). -/
def bound : State := withMem joined fun s => s.putNum (.dev (Config.fabricBase + 0x2000)) 8 (2 ^ 63 + 2 ^ 62 + 9 * 2 ^ 48)

/-- The same, read-only. -/
def boundRead : State := withMem joined fun s => s.putNum (.dev (Config.fabricBase + 0x2000)) 8 (2 ^ 63 + 9 * 2 ^ 48)

/-- A request of core 3 of endpoint 9. -/
def asked (op : ReqOp) : Req := { vc := 0, rid := 5, sep := 9, spart := 0, scid := 3, seq := 0, op := op }

/-- A sent request with its way and what its answer does. -/
def sentAs (way : Way) (c : Cont) : OutReq := { rid := 5, way := way, ep := 9, cid := 0, part := 0, seq := 0, op := .load 0x40 8, cont := c }

theorem joined_ports_of : ∀ j : Fin 16, (joined.fabric.ports[j]).leaving = false := by decide +kernel

theorem joined_leaving (i : Nat) : (joined.port i).leaving = false := by
  unfold State.port
  split
  · rename_i h
    exact joined_ports_of ⟨i, h⟩
  · rfl

theorem witness_RemoteTraffic :
    (joined.linked = true ∧ user.linked = false ∧ user.fabric.eid = 0) ∧
    (user.fabric.heldSelf 9 = false ∧ user.fabric.waits = [] ∧ user.fabric.kept = []) ∧
    ({ user.fabric with heldAt := [0] } : Fabric).heldSelf 0 = true ∧ ({ user.fabric with heldFor := [9] } : Fabric).heldSelf 9 = true ∧
    (let w : UnitWait := { ep := 9, u := 2, got := 1, who := .hart user.focus }
     let s := { joined with hart := { user.hart with run := .units 9 2 }, fabric := { joined.fabric with waits := [w] } }
     s.fabric.waits = [w] ∧ w.got < w.u ∧ w.u ≤ w.got + (s.fabric.unitsFor 9 + 1) ∧ s.hart.run = .units 9 2 ∧ s.fabric.heldSelf 9 = false ∧
     s.linked = true) ∧
    (let s := afar.onCore 0 fun c => { c with outq := [oneStore] }
     (s.core 0).outq = [oneStore] ∧ s.fabric.waits = [] ∧ s.fabric.heldAt = [] ∧ s.fabric.heldFor = [] ∧ (s.core 0).comb = [] ∧
     s.msgAhead 0 (1, 0) 9 = false ∧ oneStore.u ≤ s.fabric.unitsFor 9) ∧
    (let q2 := { oneStore with ep := 10, u := 0, group := 1 }
     let s := user.onCore 0 fun c => { c with outq := [oneStore, q2] }
     s.fabric.unitsFor 9 < oneStore.u ∧ oneStore.group ≠ q2.group ∧ oneStore.ep ≠ q2.ep ∧ q2.u ≤ s.fabric.unitsFor 10 ∧ s.msgAhead 0 (1, 0) 10 = false) ∧
    (let s := user.onCore 0 fun c => { c with comb := [oneLine], cycle := 4096 }; oneLine.since + 4096 ≤ (s.core 0).cycle ∧
     (s.core 0).outq = [] ∧ oneLine.due = false) ∧
    (let s := user.onCore 0 fun c => { c with comb := [oneLine], outq := List.replicate 64 oneStore, cycle := 4096 }
     64 ≤ (s.core 0).outq.length) ∧
    (let s := user.onCore 0 fun c => { c with comb := [oneLine] }; (s.core 0).comb[0]? = some oneLine ∧ (s.core 0).cycle < oneLine.since + 4096) ∧
    (joined.seqAt (asked (.load 0x40 8)) = .next ∧ joined.boundTo 9 0 = none ∧ vcOf (.msg 0 ⟨1, 9, 3, 1, 0, []⟩) ≠ 0) ∧
    (let s : State := { joined with fabric := { joined.fabric with rxSeq := [((9, 3), 0)] } }
     s.seqAt (asked (.load 0x40 8)) = .again ∧ s.linked = true) ∧
    (bound.seqAt (asked (.load 0x40 8)) = .next ∧ bound.boundTo 9 0 = some (0, true) ∧ boundRead.boundTo 9 0 = some (0, false) ∧
      bound.partState 0 = 1 ∧ packetOkFor 0x40 8 = true ∧ bound.linked = true ∧ boundRead.linked = true) ∧
    bound.remoteSpot 0 0x40 8 false = .ok ((Loc.dev 0x4000040).run 8) ∧ storable bound ((Loc.dev 0x4000040).run 8) = true ∧
    (∀ l ∈ (Loc.dev 0x4000040).run 8, bound.poisonAt l = false) ∧
    (∀ k < 8, bound.remoteSpot 0 ((0x40 + k) % 2 ^ 64) 1 true = .ok [.dev (0x4000040 + k)]) ∧
    (bound.atomicSpot 0 0x40 8).toOption.map (·.locs) = some ((Loc.dev 0x4000040).run 8) ∧
    (let v : VecReq := { kind := 1, esz := 3, ixw := false, byp := false, vl := 2, base := 0x40, stride := 8, act := [true, true], idx := [],
                         data := [], bad := [], reserved := 0 }
     (v.act.drop v.vl).any id = false ∧
     (vecAddrs v).mapM (fun a => bound.remoteSpot 0 a 8 false) = .ok [(Loc.dev 0x4000040).run 8, (Loc.dev 0x4000048).run 8]) ∧
    (∀ c ∈ [Cont.ratom user.focus 1 true, .arrive user.focus, .store 0 1 0 0x40],
      let s := { joined with hart := { user.hart with run := .remote 5 }, fabric := { joined.fabric with sent := [sentAs (.port 15) c] } }
      s.fabric.sent.find? (fun e => e.rid == 5) = some (sentAs (.port 15) c) ∧ s.hart.run = .remote 5 ∧ s.answerable (sentAs (.port 15) c) = true ∧
        s.hart.blocks = [] ∧ s.hart.ctx.strip = none ∧ s.hart.pend = []) ∧
    (∀ i, (joined.port i).leaving = false) ∧
    user.answerable (sentAs .queued (.arrive user.focus)) = false :=
  by
    repeat' refine And.intro ?_ ?_
    all_goals first | exact joined_leaving | decide +kernel

/-- A message of one unit of core 3 of endpoint 9. -/
def oneMsg : Msg := { type := 1, sep := 9, scid := 3, units := 1, seq := 0, payload := List.replicate 56 0 }

/-- Its record at the inbox head. -/
def oneRecord : InboxRec := { unit := 0, units := 1, pad := false, msg := oneMsg, made := false, raised := false, released := false }

/-- `bound` with an inbox of eight units. -/
def ringed (f : Core → Core) : State := bound.onCore 0 fun c => f { c with inboxUnits := 8 }

/-- The request that carries the message. -/
def oneArrival : Req := { asked (.msg 0 oneMsg) with vc := 2 }

/-- The message may come to core 0. -/
def arriving (s : State) : Bool :=
  s.linked && s.seqAt oneArrival == .next && s.boundTo 9 0 == some (s.partOf 0, true) && s.partState (s.partOf 0) == 1
    && !s.behindOwnMsg 0 oneMsg && decide (oneArrival.sep ≠ s.fabric.eid)

/-- A supervisor root that maps the page of the vector table, whose entry 1 names a handler of gang 1 (R22). -/
def vectored : State :=
  let s := withMem user fun s => (s.putNum (.dev 0x4000010) 8 0x100).putNum (.dev 0x4000018) 8 (2 ^ 63 + 2 ^ 32)
  s.onCore 0 fun c => { c with inboxUnits := 8, inbox := [oneRecord] }

theorem witness_SyncAndMessageEvents :
    (synced.granSpot (synced.rootsOf (synced.partOf 0)).1 true false 4 = .ok (.dev 0x4000040) ∧ synced.syncV (.dev 0x4000040) = true ∧
      tokenEp (tokenOf 0 4 65535) = synced.fabric.eid ∧ tokenGran (tokenOf 0 4 65535) = 4 ∧
      signalledBy (synced.syncGen (.dev 0x4000040)) (tokenOf 0 4 65535) = true) ∧
    (let s := synced.onCore 0 fun c => { c with coros := [{ oneCoro with
        running := false, met := false, wait := .token [tokenOf 0 4 65535] false 0 none [] 0 false }] }
     (s.core 0).coros.length = 1 ∧ s.granSpot (s.rootsOf (s.partOf 0)).1 true false 4 = .ok (.dev 0x4000040)) ∧
    (synced.heldContributions = [] ∧ synced.granSpot (synced.rootsOf (synced.partOf 0)).1 true true 4 = .ok (.dev 0x4000040) ∧
      storable synced ((Loc.dev 0x4000040).run 16) = true) ∧
    (let h : HeldContribution := { tok := tokenOf 0 4 0, n := 1, who := .core 0, root := (synced.rootsOf 0).1, user := true, xfer := 7, gen := none, reported := none }
     synced.granSpot h.root h.user true (tokenGran h.tok) = .ok (.dev 0x4000040) ∧ synced.copies = []) ∧
    (let s := ringed id
     arriving s = true ∧ oneMsg.units ≤ (s.core 0).inboxUnits - (s.core 0).inboxW ∧ oneMsg.units ≤ (s.core 0).free ∧ (s.core 0).ovf = [] ∧
     s.ringLeased 0 = false ∧ (s.core 0).behindRefused oneMsg = false) ∧
    (let s := ringed fun c => { c with refused := [(9, 3, 7)] }; arriving s = true ∧ (s.core 0).behindRefused oneMsg = true) ∧
    (arriving bound = true ∧ (bound.core 0).free < oneMsg.units ∧ (bound.core 0).ovfQuota < (bound.core 0).ovfUnits + oneMsg.units ∧
      (bound.core 0).asyncs.length < Config.maxAsyncTraps ∧ bound.ringLeased 0 = false ∧ (bound.core 0).behindRefused oneMsg = false) ∧
    (boundRead.linked = true ∧ boundRead.seqAt oneArrival = .next ∧ boundRead.boundTo 9 0 = some (0, false)) ∧
    (let s := ringed fun c => { c with ovf := [oneMsg] }; oneMsg.units ≤ (s.core 0).free ∧ s.ringLeased 0 = false) ∧
    (let s := ringed fun c => { c with generated := [oneMsg] }
     oneMsg.units ≤ (s.core 0).free ∧ (s.core 0).ovf = [] ∧ (s.onCore 0 fun c => { c with generated := [] }).behindOwnMsg 0 oneMsg = false) ∧
    (let k : KeptMsg := { ep := 9, cid := 0, gid := 1, coid := 0, dcid := 3, msg := oneMsg }; user.fabric.heldSelf k.ep = false) ∧
    (vectored.halts 0 = false ∧ (vectored.setPartState 0 2).halts 0 = true) ∧
    ((vectored.core 0).inbox.find? (fun r => !r.pad && !r.made) = some oneRecord ∧
      vectored.vectorEntry 0 1 = some (0x100, 2 ^ 63 + 2 ^ 32) ∧ bit (2 ^ 63 + 2 ^ 32) 63 = true ∧
      vectored.gangs.find? (fun g => g.gid == bits (2 ^ 63 + 2 ^ 32) 47 32 && g.part == vectored.partOf 0 && !g.ending) = some oneGang ∧
      (vectored.core 0).coros.length < Config.maxCoroutines ∧ (vectored.core 0).cached.length + (vectored.lazies 0).length < Config.residentSlots ∧
      ((vectored.core 0).cached.map (·.recordBytes (vectored.core 0).kc)).sum + (vectored.lazies 0).sum +
        recordSize (bits (2 ^ 63 + 2 ^ 32) 1 0) (vectored.core 0).kc 0 false ≤ Config.cacheBytes) ∧
    (let s := vectored.onCore 0 fun c => { c with mvtbase := 0x100000 }; s.vectorEntry 0 1 = none ∧ oneRecord.raised = false) := by
  decide +kernel

/-- No partition is DRAINED and no quadrant has a queue, as a test. -/
def recordless (s : State) : Bool :=
  ((List.range 16).all fun p => (s.byteAt (.dev (pcaWord p 7 + 7))).toNat % 16 != 3)
    && (List.range 4).all fun q => (s.quad q).slots.isEmpty && (s.quad q).rlhead.toList.all fun x => x.toNat == 0

/-- Then no byte is one of a fault record or holds a SLOT. -/
theorem recordless_of {s : State} (h : recordless s = true) (l : Loc) : s.inFaultRecord l = false ∧ s.holdsSlot l = false := by
  simp only [recordless, Bool.and_eq_true, List.all_eq_true, List.mem_range, bne_iff_ne, List.isEmpty_iff, beq_iff_eq] at h
  constructor
  · simp only [State.inFaultRecord, List.any_eq_false, List.mem_range]
    intro p hp
    simp [h.1 p hp]
  · simp only [State.holdsSlot, List.any_eq_false, List.mem_range]
    intro q hq
    obtain ⟨h1, h2⟩ := h.2 q hq
    simp only [h1, List.any_nil, Bool.false_or, Bool.not_eq_true, List.any_eq_false]
    intro x hx
    rw [h2 x hx]
    rfl

/-- A frame of device memory beyond the tables may take stores while no store is pending and no full/empty operation is held. -/
theorem storable_frame_of {s : State} {a n : Nat} (hw : storable s [] = true) (hp : s.hart.pend = []) (hh : s.harts = []) (hf : s.feHeld = [])
    (ha : 0x200000 ≤ a) (hr : recordless s = true) (hq : (s.core s.cid).comb = [] ∧ (s.core s.cid).outq = [] ∧ s.fabric.sent = []) :
    Storable s ((Loc.dev a).run n) := by
  refine ⟨(storable_of hw).wf, once_of (unmapped_of hw) ?_, fun l hl => ?_, fun l hl => ?_, ?_⟩
  · exact List.Nodup.map (fun x y h => by simpa [Loc.plus] using h) List.nodup_range
  · obtain ⟨k, _, rfl⟩ := List.mem_map.mp hl
    intro e he
    rw [Laws.storage_fresh (unmapped_of hw), Laws.storage_fresh (unmapped_of hw)] at he
    subst he
    refine ⟨?_, ?_, ?_, ?_, ?_, (recordless_of hr _).1, fun _ => (recordless_of hr _).2⟩
    · exact if_neg (by simp only [Config.controlBase]; omega)
    · exact if_neg (by simp only [portWord, Config.fabricBase]; omega)
    · simp only [Config.controlBase, Config.cores]; omega
    · simp only [Config.fabricBase]; omega
    · simp only [Config.healthBase, Config.healthBytes]; omega
  · obtain ⟨k, _, rfl⟩ := List.mem_map.mp hl
    exact ⟨rfl, by simp [State.pinned, Loc.plus, hp, hh, hf]⟩
  · simp [NoLoops, State.loopAhead, hq.1, hq.2.1, hq.2.2]

/-- A copy of 8 bytes from 0x400 to 0x800. -/
def eightBytes (held : Held) : Copy :=
  { id := 7, cid := 0, gid := 1, coid := 0, sup := false
    p := { paramsOf ((List.range 16).map fun i => copyBlock 0 0 / 2 ^ (64 * i) % 2 ^ 64) with e0 := 8 }
    pblk := 0, rows := none, landed := [], total := 8, got := 0, paid := 0, vstart := 0, held := held, first := true, reported := none
    agent := .hart 0 0, vlz := false }

/-- `user` with that copy in flight. -/
def copyingOne (held : Held) : State := { user with copies := [eightBytes held] }

/-- The premises of a landing piece. -/
def landMet (held : Held) : Bool :=
  let s := copyingOne held
  let c := eightBytes held
  s.copy? 7 == some c && c.piece 0 0 0 == some (0, 0, 8) && s.fabric.sent.isEmpty && !c.p.tk && !c.p.cm
    && decide (8 ≤ roomAt 0 0x400 ∧ 8 ≤ roomAt 0 0x800)
    && match s.copySide c 0 0x400 0x400 8 false, s.copySide c 0 0x800 0x800 8 true with
      | .ok ps, .ok pd => ps.tiers.isEmpty && pd.tiers.isEmpty && ps.locs.length == 8 && pd.locs.length == 8 && ps.locs.all (fun l => !s.poisonAt l)
          && storable s pd.locs
      | _, _ => false

/-- A page-in of partition 0 without a frame, or with one. -/
def oneIn (frame : Option Nat) : PageIn :=
  { part := 0, root := 0x5000000, va := 0x10000, size := 0, entry := 0x7000000, cid := 0, pte := 2 ^ 63 + 2 ^ 62, token := 0, frame := frame
    noframe := false, waiters := [] }

/-- `user` with that page-in and a pool of one frame at 0x2000 (R338). -/
def pooled : State :=
  { withMem user fun s => ((s.putNum (.dev (pcaWord 0 3)) 8 0x2000).putNum (.dev 0x4002000) 32 (0x3000 + 4 * 2 ^ 64 + 2 ^ 128)).putNum
      (.dev 0x4003000) 8 0x6000000 with pageins := [oneIn none] }

/-- A push of one element of region 0 into block 0 of the grid. -/
def onePush (ep : Nat) : Push :=
  { cid := 0, gid := 1, coid := 0, part := 0, key := 7, ep := ep, blk := 0, region := 0, piece := 0, step := 0, els := [(0, [1, 2, 3, 4], false)]
    srcKey := 7, started := false, held := .no, sn := 0, begun := false }

/-- `user` with a page-in whose frame lies at 0x6000000. -/
def framed : State := { user with pageins := [oneIn (some 0x6000000)] }

theorem framed_storable (a n : Nat) (ha : 0x200000 ≤ a) : Storable framed ((Loc.dev a).run n) :=
  storable_frame_of (by decide +kernel) (by decide +kernel) (by decide +kernel) (by decide +kernel) ha (by decide +kernel) (by decide +kernel)

/-- The page-in's frame and the table entry lie apart. -/
theorem frame_apart (n : Nat) (hn : n ≤ 0x1000000) : ∀ l ∈ (Loc.dev 0x7000000).run 8,
    framed.storage l ∉ ((Loc.dev 0x6000000).run n).map framed.storage := by
  rw [show framed.storage = id from funext (Laws.storage_fresh rfl), List.map_id]
  intro l hl hm
  obtain ⟨j, _, rfl⟩ := List.mem_map.mp hl
  obtain ⟨k, hk, he⟩ := List.mem_map.mp hm
  rw [List.mem_range] at hk
  simp only [Loc.plus, Loc.dev.injEq, id_eq] at he
  omega

/-- `gridded (some 0) 1` with the push of this endpoint, and `user`'s grid with a push to endpoint 9 and units for it. -/
def pushing : State := { gridded (some 0) 1 with pushes := [onePush 0] }
def pushingOut : State := { gridded (some 0) 1 with pushes := [onePush 9], fabric := { user.fabric with units := [(9, 8)] } }

theorem witness_CopyAndPushEvents_copy :
    MemoriesWf (copyingOne .no) ∧ landMet .no = true ∧ landMet (.walk { cause := .xlateFault }) = true :=
  ⟨(storable_of (s := copyingOne .no) (ls := []) (by decide +kernel)).wf, by decide +kernel, by decide +kernel⟩

theorem witness_CopyAndPushEvents_frame :
    pooled.pageins.filter (fun g => g.entry == 0x7000000 && g.frame.isNone) = [oneIn none] ∧ (pooled.takeFrame 0 0).1 = some 0x6000000 ∧
      (user.takeFrame 0 0).1 = none := by decide +kernel

theorem witness_CopyAndPushEvents_pageIn :
    framed.tierUp = true ∧ Storable framed ((Loc.dev 0x6000000).run (oneIn none).bytes) ∧ Storable framed ((Loc.dev 0x7000000).run 8) ∧
      (∀ l ∈ (Loc.dev 0x7000000).run 8, framed.storage l ∉ ((Loc.dev 0x6000000).run (oneIn none).bytes).map framed.storage) ∧ NoRecords framed ∧ pageInLeaf (oneIn none).pte 0x6000000 < 2 ^ 64 :=
  ⟨by decide +kernel, framed_storable _ _ (by decide), framed_storable _ _ (by decide), frame_apart _ (by decide +kernel),
    noRecords_of (by decide +kernel) (by decide +kernel), by decide +kernel⟩

theorem witness_CopyAndPushEvents_push :
    pushing.grids.find? (fun g => g.part == 0 && g.gid == 1 && g.key == 7) = some (oneGrid (some 0) 1) ∧
      pushing.gangOfGrid (oneGrid (some 0) 1) = some oneGang ∧
      (pushing.storeEls (oneGrid (some 0) 1) oneGang 0 0 (onePush 0).els).toOption.isSome = true ∧
      ((oneGrid (some 0) 1).block 0).isSome = true ∧ oneGang.ending = false := by decide +kernel

theorem witness_CopyAndPushEvents_out :
    (onePush 9).ep ≠ pushingOut.fabric.eid ∧ pushingOut.pushSent (onePush 9) = false ∧ pushingOut.fabric.waits = [] ∧
      unitsOf (((onePush 9).els.take ((oneGrid (some 0) 1).packet (onePush 9))).map (·.2.1.length)).sum ≤ pushingOut.fabric.unitsFor 9 := by
  decide +kernel

/-! ### Scheduling, partition commands, launches and steps -/

/-- The coroutine of `user` off its hart, as `f` makes it. -/
def benched (f : Coro → Coro) : State :=
  (user.onFocus fun h => { h with run := .idle, occ := none }).onCore 0 fun c => { c with coros := [f { oneCoro with running := false }] }

/-- The coroutine of `user` in an open strip, its hart as `f` makes it. -/
def rolling (f : Hart → Hart) : State := stripped.onFocus fun h => f { h with pend := [] }

/-- A trap to deliver. -/
def oneTrap : Trap := { cause := .ctxShape, val := 0, val2 := 1 }

theorem witness_SchedulingEvents_records :
    (let s := benched id
     s.focus = .hart 0 0 ∧ s.hart.run = .idle ∧ s.hart.occ = none ∧ s.halts 0 = false ∧ (s.setPartState 0 2).halts 0 = true ∧ (s.core 0).spillWaits = false ∧ s.overFull 0 = false ∧
     ((s.core 0).choose 0).isSome = true ∧ oneCoro.traps = [] ∧ oneCoro.wait = .ready ∧ oneCoro.copyRecs = []) ∧
    (let k := { oneCoro with running := false, pre := true }
     let s := (benched fun _ => k).putNum (.dev (Config.controlBase + 0x401)) 1 0
     (s.core 0).choose 0 = none ∧ (s.core 0).coro 1 0 = some k ∧ s.recordCheck 0 k = none ∧ s.partOf 1 = s.partOf 0 ∧
     s.storesOf 0 1 0 = false ∧ (s.core 1).coros.length < Config.maxCoroutines ∧ s.overFull 0 = false ∧ (s.core 1).kc = s.recordKc 0 k ∧
     (s.onCore 1 fun d => { d with coros := d.coros ++ [s.loadRecord 0 k] }).overFull 1 = false ∧ (s.core 0).ctxarg = 0 ∧
     (s.core 0).kc = s.recordKc 0 k ∧ s.fabric.waits = [] ∧ s.gangOn 0 1 = some oneGang ∧ oneGang.job = none) ∧
    (let s := (benched fun k => { k with pre := true }).onCore 0 fun c => { c with ctxBusy := true, ctxGid := 1, ctxCoid := 0, ctxarg := 1 }
     (s.core 0).ctxBusy = true ∧ (s.core 0).ctxGid = 1 ∧ (s.core 0).ctxCoid = 0 ∧ (s.core 0).ctxarg ≠ 0 ∧ (s.core 0).coro 1 7 = none) ∧
    (let k := { oneCoro with running := false, pre := true, kc := 1 }
     (benched fun _ => k).recordCheck 0 k = some .ctxShape ∧ ((benched fun _ => k).core 0).asyncs.length < Config.maxAsyncTraps) := by
  decide +kernel

/-- A byte that no listed cell covers reads as it does at reset. -/
theorem cellAt_none_of : ∀ (l : List Host.Cell) (a : Nat), (∀ c ∈ l, c.1 ≠ a) → cellAt l a = none
  | [], _, _ => rfl
  | (x, b) :: r, a, h => by
    have hx : x ≠ a := h (x, b) (by simp)
    have hr := cellAt_none_of r a fun c hc => h c (by simp [hc])
    by_cases ha : a < x <;> simp [cellAt, hx, ha, hr]

/-- The region's bytes of `s` from `b` on, all zero but for the byte 1 at offset 7: as a number, the record header of FMT 1 alone. -/
theorem numAt_blank_of (s : State) (b n : Nat) (hm : s.molt.remap = []) (h8 : s.numAt ((List.range 8).map fun i => .dev (b + i)) = 2 ^ 56)
    (hc : ∀ c ∈ s.mem.cells, c.1 < b + 8 ∨ b + 8 + n ≤ c.1) (h0 : ∀ i < n, resetByte (b + 8 + i) = 0) :
    s.numAt ((List.range (8 + n)).map fun i => .dev (b + i)) = 2 ^ 56 := by
  have happ : ∀ (x y : List Byte), ofBytes (x ++ y) = ofBytes x + 256 ^ x.length * ofBytes y := by
    intro x; induction x with
    | nil => simp [ofBytes]
    | cons a x ih => intro y; simp only [List.cons_append, ofBytes, ih, List.length_cons, Nat.pow_succ]; ring
  have hz : ∀ (x : List Byte), (∀ a ∈ x, a = 0) → ofBytes x = 0 := by
    intro x; induction x with
    | nil => intro; rfl
    | cons a x ih => intro h; simp [ofBytes, ih fun c hc => h c (by simp [hc]), h a (by simp)]
  have hrest : ofBytes (((List.range n).map fun i => s.byteAt (.dev (b + (8 + i))))) = 0 := by
    refine hz _ fun a ha => ?_
    obtain ⟨i, hi, rfl⟩ := List.mem_map.mp ha
    have hi := List.mem_range.mp hi
    rw [← Nat.add_assoc]
    simp only [State.byteAt, Mem.byte, Laws.storage_fresh hm]
    rw [cellAt_none_of _ _ fun c h e => by have := hc c h; omega]
    simpa using h0 i hi
  rw [List.range_add, List.map_append, State.numAt, List.map_append, happ]
  rw [State.numAt] at h8
  rw [h8]
  simp only [List.map_map, Function.comp_def]
  rw [hrest, Nat.mul_zero, Nat.add_zero]

/-- `benched` with a context region at the mapped page, its coroutine spilled there at slot `a`; `recorded` has the header of FMT 1 and
zeros in that slot. -/
def awayAt (a : Nat) (f : Coro → Coro) : State :=
  (benched fun k => f { k with resident := false, slot := a, kc := 0 }).onCore 0 fun c => { c with ctxsize := 0x10000, kc := 0 }
def recorded : State := withMem (awayAt 0 id) fun s => s.putNum (.dev 0x4000007) 1 1




theorem witness_SchedulingEvents_refused : (let s := awayAt 0x30000000 id
     match (s.core 0).coro 1 0 with
      | none => false
      | some k => !k.resident && !k.running && k.met && decide (s.recordCheck 0 k = some .ctxFormat ∧ k.refusal = none)
          && decide ((s.core 0).asyncs.length < Config.maxAsyncTraps)) = true := by decide +kernel
/-- The context region holds a record of fewer than 65,536 bytes at offset 0 in one page. -/
theorem regionSpots_page_of (s : State) (cid n : Nat) (l : Leaf) (h0 : (s.core cid).ctxbase = 0) (hn : 0 < n) (hn2 : n < 65536)
    (hl : s.leafFor (s.rootsOf (s.partOf cid)).2 false false 0 = .ok l) {b : Nat} (hp : 65536 ≤ 2 ^ pageBits l.level) (ht : bit l.pte 62 = false)
    (ha : l.place 0 = .dev b) : s.regionSpots cid 0 n false = some ((List.range n).map fun i => .dev (b + i)) := by
  have hf : min n (2 ^ pageBits l.level) = n := by omega
  have hs : s.pagedOnly (s.rootsOf (s.partOf cid)).2 false 0 n =
      .ok { locs := (List.range n).map fun i => .dev (b + i), lines := l.lines, tiers := [] } := by
    have h56 : ¬ 72057594037927936 < n := by omega
    simp only [State.pagedOnly, State.pagedSpot, hl, ha, hf, ht, Nat.zero_add, Nat.zero_mod, Nat.sub_zero, Loc.run, bind, Except.bind, pure,
      Except.pure, if_true, Bool.false_eq_true, if_false]
    exact if_neg h56
  have hd : n / 65536 + 2 = 2 := by omega
  simp [State.regionSpots, h0, hd, List.range_succ, hs, show ¬ n = 0 by omega, show n ≤ 65536 by omega]

theorem leaf_recorded_of : ∃ l, recorded.leafFor (recorded.rootsOf (recorded.partOf 0)).2 false false 0 = .ok l ∧ 65536 ≤ 2 ^ pageBits l.level ∧
    bit l.pte 62 = false ∧ l.place 0 = .dev 0x4000000 :=
  have h : (match recorded.leafFor (recorded.rootsOf (recorded.partOf 0)).2 false false 0 with
    | .ok l => decide (65536 ≤ 2 ^ pageBits l.level ∧ bit l.pte 62 = false ∧ l.place 0 = .dev 0x4000000)
    | .error _ => false) = true := by decide +kernel
  match hm : recorded.leafFor (recorded.rootsOf (recorded.partOf 0)).2 false false 0, h with
  | .ok l, h => ⟨l, rfl, of_decide_eq_true h⟩

/-- The record of `recorded`'s coroutine is the header of FMT 1 over zeros. -/
theorem read_recorded_of (k : Coro) (h0 : k.slot = 0) (h1 : k.recordBytes k.kc = 8 + 37880) : recorded.readRecord 0 k = some (2 ^ 56) := by
  obtain ⟨l, hl, hp, ht, ha⟩ := leaf_recorded_of
  rw [State.readRecord, h0, h1, regionSpots_page_of recorded 0 (8 + 37880) l rfl (by decide) (by decide) hl hp ht ha, Option.map_some,
    numAt_blank_of recorded 0x4000000 37880 rfl (by decide +kernel) (by decide +kernel)
      (by intro i hi
          have hr : Config.firmwareRoot 0 = 0x1000000 := rfl
          unfold resetByte
          rw [hr]
          unfold Config.controlBase Config.cores Config.fabricBase Config.healthBase
          repeat (first | rw [if_neg (by omega)]))]

theorem witness_SchedulingEvents_fetch : ∃ k, (recorded.core 0).coro 1 0 = some k ∧ k.resident = false ∧ k.running = false ∧ k.met = true ∧
    recorded.recordCheck 0 k = none ∧ (recorded.core 0).spillWaits = false ∧
    (recorded.onCoro 0 1 0 fun _ => { recorded.loadRecord 0 k with refusal := none }).overFull 0 = false := by
  have hr := read_recorded_of { oneCoro with running := false, resident := false, slot := 0, kc := 0 } rfl (by decide +kernel)
  refine ⟨_, (by decide +kernel : (recorded.core 0).coro 1 0 = some { oneCoro with running := false, resident := false, slot := 0, kc := 0 }), rfl, rfl,
    by decide +kernel, ?_, by decide +kernel, ?_⟩
  · unfold State.recordCheck
    simp only [hr]
    decide +kernel
  · unfold State.loadRecord
    simp only [hr]
    decide +kernel

theorem witness_SchedulingEvents_harts :
    Runner user 0 0 1 0 ∧ ((user.core 0).coro 1 0).isSome = true ∧ (user.core 0).quantum ≠ 0 ∧
    CacheRoom user 0 1 0 fullMask user.hart.ctx.m ∧ user.hart.run = .running ∧ user.hart.ctx.strip = none ∧ user.hart.blocks = [] ∧
    user.hart.unchecked = [] ∧
    (let s := rolling fun h => { h with switchReq := true, ran := 200000, preemptReq := true, asked := 4096 }
     s.hart.ctx.strip.isSome = true ∧ s.hart.run = .running ∧ 2 * (s.core 0).quantum ≤ s.hart.ran ∧ 4096 ≤ s.hart.asked ∧ s.copies = [] ∧
     s.hart.committing = false ∧ s.hart.unchecked = []) ∧
    (let s := rolling fun h => { h with committing := true }
     s.hart.committing = true ∧ s.hart.ctx.strip.isSome = true ∧ s.focus = .hart 0 0) ∧
    (let s := rolling fun h => { h with run := .ring, held := 4096 }; s.hart.run = .ring ∧ 4096 ≤ s.hart.held) :=
  ⟨runner_user, rfl, by decide, (show State.overFull _ _ = false by decide +kernel), rfl, rfl, rfl, rfl, by decide +kernel, by decide +kernel,
    by decide +kernel⟩

theorem witness_SchedulingEvents_rollback :
    (let s := rolling id
     CacheRoom { s with hart := s.hart.restart } 0 1 0 fullMask s.hart.restart.ctx.m) ∧
    (let s := (rolling fun h => { h with due := 4096 }).onCore 0 fun c => { c with asyncs := [oneTrap] }
     (s.core 0).asyncs = oneTrap :: [] ∧ s.asyncAgent 0 = s.focus ∧ s.asyncFree = true ∧ s.hart.run = .running ∧ s.hart.ctx.strip.isSome = true ∧
     s.hart.committing = false ∧ s.hart.unchecked = []) ∧
    (let s := user.onCore 0 fun c => { c with asyncs := [oneTrap], coros := [{ oneCoro with traps := [oneTrap] }] }
     s.asyncOk = true ∧ s.asyncAgent 0 = s.focus ∧ s.hart.ctx.strip = none ∧ ((s.core 0).coro 1 0).map (·.traps) = some [oneTrap]) ∧
    (let s := user.onFocus fun h => { h with run := .idle, occ := none, traps := [oneTrap] }
     s.hart.occ = none ∧ s.hart.traps = [oneTrap] ∧ s.asyncFree = true ∧ s.hart.run = .idle ∧ s.hart.ctx.strip = none ∧ s.hart.blocks = []) :=
  ⟨(show State.overFull _ _ = false by decide +kernel), by decide +kernel, by decide +kernel, by decide +kernel⟩

/-- A VLDG at a ghost element of block 0 whose region has no tag yet, in an open strip, stalled for 4,096 cycles: x16 holds the frame's
address and x17 the tag of step 0. -/
def stallWord : EWord := { vw 10 with va := 0, vb := 1, xs := true }
def stalled (run : RunState) : State :=
  let s := withMem (laneAt (lined 2 (some 0) none) (.vldg stallWord) 1 0x1000) fun s => s.putNum (.dev 0x4002000) 8 (2 ^ 63)
  s.onFocus fun h => { h with
    ctx := { h.ctx with strip := some (h.ctx.checkpoint 0x20) }, run := run, held := 4096
    blocks := h.blocks.map fun b => { b with snap := word 0x1000 :: 0 :: b.snap.drop 2 } }

/-- The token of its ghost word. -/
def stallToken : Word := (twoBlocks 2 (some 0) none).wordToken 0 0 false 0

theorem witness_SchedulingEvents_stall :
    (let s := stalled (.stall 0)
     s.hart.run = .stall 0 ∧ 4096 ≤ s.hart.held ∧ ((laneBlock s).words[(laneBlock s).idx]?.bind fun x => decodeE x.toNat) = some (.vldg stallWord) ∧
     (match exec (.vldg stallWord) s with | .next t => decide (t = { s with hart := { s.hart with run := .stall stallToken } }) | _ => false) = true ∧
     tokenEp stallToken = s.fabric.eid ∧
     s.granSpot (s.rootsOf (s.partOf 0)).1 true false (tokenGran stallToken) = .ok (.dev 0x4002000) ∧ s.syncV (.dev 0x4002000) = true ∧
     signalledBy (s.syncGen (.dev 0x4002000)) stallToken = false) := by
  decide +kernel

/-- `user` with a command of partition `p` taken, and the area's fields at reset. -/
def commanded (p cmd : Nat) (counts : List Nat) : State :=
  { user with commands := [{ part := p, cmd := cmd, accepted := true, counts := counts }] }

theorem witness_PartitionCommands :
    ((commanded 1 1 []).dev8 (pcaWord 1 4) = 0 ∧ (commanded 1 1 []).commandRuns 1 1 = true ∧ (commanded 1 3 []).commandRuns 1 3 = true ∧
      (commanded 1 4 []).commandRuns 1 4 = true) ∧
    (∀ p ∈ [0, 1], (commanded p 2 []).commands.find? (fun c => c.part == p && c.cmd == 2) =
        some { part := p, cmd := 2, accepted := true, counts := [] } ∧
      (commanded p 2 []).leaseMoving p = false ∧ (commanded p 2 []).freezing = []) ∧
    (let s := { commanded 0 2 [] with freezing := [{ mask := 1, image := 0x4000000, queues := [], cancelled := [] }] }
     ∃ f ∈ s.freezing, bit f.mask 0 = true) ∧
    (let s := { commanded 0 2 [] with molt := { user.molt with leases := [{ lease 1 0 0 with testing := false }] } }
     s.leaseMoving 0 = true) ∧
    (let s := commanded 0 2 [1, 0, 0, 0]
     (s.commands.find? fun c => c.part == 0 && c.cmd == 2) = some { part := 0, cmd := 2, accepted := true, counts := [1, 0, 0, 0] } ∧ s.copies = [] ∧
     s.pushes = [] ∧ s.feHeld = [] ∧ s.loopsBack 0 = false ∧ s.pageins = [] ∧ ∀ q < 4, (s.quad q).events.length < Config.maxEvents) ∧
    ((commanded 0 2 []).partState 0 = 1 ∧ (commanded 1 2 []).partState 1 = 0) ∧
    (user.commandRuns 0 1 = false ∧ user.commandRuns 0 2 = false ∧ user.commandRuns 0 3 = false ∧ user.commandRuns 0 4 = false) ∧
    (∀ p cmd counts, Apart (commanded p cmd counts)) :=
  by
    repeat' refine And.intro ?_ ?_
    all_goals first | exact fun _ _ _ => apart_of rfl | decide +kernel

/-- A freeze of partition 0 that has begun, with its core still and the pod key `key`. -/
def freezing (key : Option Nat) : State :=
  { (benched id).onCore 0 fun c => { c with coros := [] } with
    freezing := [{ mask := 1, image := 0x4000000, queues := [], cancelled := [] }], eft := { user.eft with podKey := key } }

/-- Every event queue full. -/
def crowded (s : State) : State :=
  { s with quads := s.quads.map fun k => { k with events := List.replicate 256 { code := 7, arg := 0, arg2 := 0 } } }

theorem witness_PartitionCommands_freeze :
    (user.eft.booted = true ∧ user.freezing = [] ∧ (maskParts 1).filter (fun p => user.partState p == 1) = [0] ∧
      user.leaseMoving 0 = false ∧ user.commands = [] ∧ maskParts 1 = [0] ∧ ∀ q < 4, (user.quad q).events.length < Config.maxEvents) ∧
    ((commanded 0 2 []).freezing = [] ∧ (∃ p ∈ maskParts 1, ∃ c ∈ (commanded 0 2 []).commands, c.part = p)) ∧
    (Config.maxEvents ≤ ((crowded user).quad 0).events.length ∧ (crowded user).commands = [] ∧
      (maskParts 1).filter (fun p => (crowded user).partState p == 1) = [0]) ∧
    (∀ key ∈ [none, some 7], let s := freezing key
     s.freezing.map (·.image) = [0x4000000] ∧ (maskParts 1).flatMap s.coresOf = [0] ∧ (s.core 0).coros = [] ∧
     (∀ h < 8, (s.hartOf (.hart 0 h)).level = .user ∧ (s.hartOf (.hart 0 h)).occ = none) ∧
     s.frozenStill [0] = true ∧ s.eft.podKey = key ∧ s.fabric.waits = [] ∧ ∀ q < 4, (s.quad q).events.length < Config.maxEvents) ∧
    ({ user with eft := { user.eft with booted := false } } : State).eft.booted = false := by decide +kernel

/-- A trailer; whether its signatures verify is free (log entry 5). -/
def oneSeal : Seal :=
  { salt := 0, tags := [], imageKey := 0, wrapped := 0, identity := { chain := 0, key := 0, ecdsa := 0, lms := 0 }, lmsKey := 0, treeCert := 0, ecdsa := 0, lms := 0 }

/-- The image of partition 0 with its one core and gang. -/
def oneImage : Image :=
  { addr := 0x4000000, eid := 0, key := some 7, trailer := oneSeal
    cids := [(0, 0, 0)], roots := [(0, 0x5000000, 0x5000000)], queues := [], gangs := [oneGang], cancelled := [], cores := [(0, Core.reset 0)]
    copies := [], grids := [], pushes := [], feHeld := [], contributions := [], kept := [], waits := [], sent := [], seqs := [], ranges := []
    pages := Mem.fresh, headers := [], records := [] }

/-- Partition 0 frozen into it. -/
def frozen : State :=
  let s := withMem ((benched id).onCore 0 fun c => { c with coros := [] }) fun s => s.setPartState 0 4
  { s with images := [oneImage], frozenBy := [(0, 0x4000000)], gangs := [], eft := { s.eft with podKey := some 7 } }

theorem witness_PartitionCommands_thaw :
    Sound frozen ∧ Apart frozen ∧ frozen.images.find? (fun g => g.addr == 0x4000000) = some oneImage ∧ frozen.eft.booted = true ∧ oneImage.key = some 7 ∧
    frozen.eft.podKey = some 7 ∧ oneImage.eid = frozen.fabric.eid ∧ frozen.thawFits oneImage 0 = true ∧ (oneImage.roots.map (·.1)).Nodup ∧
    oneImage.queues = [] ∧ oneImage.feHeld = [] ∧ frozen.feHeld = [] ∧ (∀ q < 4, (frozen.quad q).events.length < Config.maxEvents) ∧
    (frozen.onCore 0 fun k => k.thawed (Core.reset 0)).overFull 0 = false := by
  refine ⟨⟨(storable_of (s := frozen) (ls := []) (by decide +kernel)).wf, ?_⟩, apart_of rfl, by decide +kernel⟩
  have h : (frozen.images.all fun g => g.pages.wf resetByte && g.cores.all fun p => p.2.spad.wf zeroByte) = true := by decide +kernel
  simp only [List.all_eq_true, Bool.and_eq_true] at h
  exact fun g hg => ⟨(h g hg).1, fun p hp => (h g hg).2 p hp⟩

/-- An image whose wrapped key and tags are those of its contents is thawed as the free answers of the four signature checks are. -/
theorem witness_PartitionCommands_seal : ∀ (s : State) (g : Image) (p : Nat), s.eft.active = 0 → s.eft.podKey = some p →
    g.trailer.wrapped = Config.freeWrapped p g.trailer.imageKey → g.trailer.tags = g.tags g.trailer.imageKey g.trailer.salt →
    s.sealHolds g =
      (Config.ecdsaVerifies s.eft.slotA.ecdsaKey (bytesOf 96 g.trailer.identity.key) g.trailer.identity.ecdsa &&
        Config.lmsVerifies s.eft.slotA.lmsKey (bytesOf 96 g.trailer.identity.key) g.trailer.identity.lms &&
        Config.ecdsaVerifies g.trailer.identity.key (bytesOf 56 g.trailer.lmsKey) g.trailer.treeCert &&
        Config.ecdsaVerifies g.trailer.identity.key (g.signedBytes g.trailer.tags) g.trailer.ecdsa &&
        Config.lmsVerifies g.trailer.lmsKey (g.signedBytes g.trailer.tags) g.trailer.lms) := by
  intro s g p ha hp hw ht
  simp [State.sealHolds, ha, hp, hw, ← ht]

/-- Quadrant 0's launch processor with the slot `e` and one page of queue memory. -/
def walking (e : Slot) : State := fw.onQuad 0 fun k => { k with slots := [e] }

/-- The same with the page mapped for partition 0 too, and a sync word at 0x40 with V and GEN as `w` has them. -/
def awaitingWord (st w : Nat) (tok : Word) : State :=
  let s := walking { qsb := 0x40, qctl := word (withState 0 st), rdidx := 0, wdcount := 100, done := 0, ftoken := tok, fval := 0 }
  withMem { s with roots := s.roots.set 0 (0x5000000, 0x5000000) } fun s =>
    (s.putNum (.dev 0x5000000) 8 (2 ^ 63 + 0x2000000)).putNum (.dev 0x4000040) 8 w

/-- Quadrant 0's walker runs over list 7, which holds the queue at 0x100: QCTL as given, and one packet of zeros at 0x800. -/
def listed (qctl : Nat) : State :=
  let s := fw.onQuad 0 fun k => { k with run := true, rlhead := k.rlhead.set 7 0x100 }
  withMem s fun s =>
    (((s.putNum (.dev 0x4000108) 8 qctl).putNum (.dev 0x4000110) 8 0x800).putNum (.dev 0x4000118) 8 2).putNum (.dev 0x4000128) 8 1

/-- The walker finds the queue and its packet starts, and the other lists stay empty. -/
def startsPacket (s : State) : Bool :=
  let r := s.runList 0 7
  r.1 == [0x100] && !r.2.2 && (s.quad 0).turn.isNone && ((List.finRange 8).all fun j => j == 7 || (s.quad 0).rlhead[j] == 0) &&
  match (r.2.1.tend 0 0x100).takePacket 0 0x100 [] with
  | .started u => (List.finRange 8).all fun j => j == 7 || (u.quad 0).rlhead[j] == 0
  | .blocked _ => false

/-- A queue at 0x40 in state `st`, which awaits the word of 0x4000040 in device memory. -/
def oneSlot (st : Nat) : Slot :=
  { qsb := 0x40, qctl := word (withState 0 st), rdidx := 0, wdcount := 100, done := 0, ftoken := tokenOf 0 4 0, fval := 0 }

theorem witness_LaunchEvents_turn :
    startsPacket (listed (2 ^ 63)) = true ∧
    (let s := crowded (listed 0); (s.quad 0).run = true ∧ (s.quad 0).turn = none ∧ (s.runList 0 7).2.2 = true) := by decide +kernel

theorem witness_LaunchEvents_wait :
    (∀ w ∈ [(2 ^ 63, true, 0), (2 ^ 63, true, 65535), (0, false, 0)],
      let s := awaitingWord 2 w.1 (tokenOf 0 4 w.2.2)
      (s.quad 0).slots.map (·.ftoken) = [tokenOf 0 4 w.2.2] ∧ tokenGran (tokenOf 0 4 w.2.2) = 4 ∧ tokenEp (tokenOf 0 4 w.2.2) = s.fabric.eid ∧
      bits (s.qword 0 0x40 8) 50 47 = 0 ∧ s.granSpot (s.rootsOf 0).1 true false 4 = .ok (.dev 0x4000040) ∧ s.syncV (.dev 0x4000040) = w.2.1 ∧
      signalledBy (s.syncGen (.dev 0x4000040)) (tokenOf 0 4 w.2.2) = decide (w.2.2 = 65535) ∧ (s.quad 0).events = []) ∧
    (let s := awaitingWord 2 0 (tokenOf 0 0x10000 0)
     tokenGran (tokenOf 0 0x10000 0) = 0x10000 ∧
     (match s.granSpot (s.rootsOf 0).1 true false 0x10000 with | .error t => decide (t.cause ≠ .addrHole) | .ok _ => false) = true) := by
  decide +kernel

theorem witness_LaunchEvents :
    ((fw.quad 0).waiting = [] ∧ (fw.quad 0).run = false) ∧
    (let s := fw.onQuad 0 fun k => { k with run := true }
     (s.quad 0).run = true ∧ ∀ p : Fin 8, (s.quad 0).rlhead[p] = 0) ∧
    (let s := walking (oneSlot 2)
     (s.quad 0).slots = [oneSlot 2] ∧ bits (oneSlot 2).qctl.toNat 56 54 = 2 ∧ tokenGran (oneSlot 2).ftoken = 4 ∧
     tokenEp (oneSlot 2).ftoken = s.fabric.eid ∧ (s.quad 0).events.length < Config.maxEvents) ∧
    (let s := { (walking (oneSlot 1)).putNum (.dev 0x4000070) 8 100 with gangs := [{ oneGang with qsb := 0x40 }] }
     (s.quad 0).slots[0]? = some (oneSlot 1) ∧ s.running 0 0x40 = [{ oneGang with qsb := 0x40 }] ∧ s.qword 0 0x40 0x30 = 100 ∧
     s.queueState 0 0x40 ≠ 4) ∧
    (let k := ((fw.onQuad 0 fun k => { k with armed := true, ftcmp := 5, ftimer := 9 }).quad 0)
     k.armed = true ∧ k.ftcmp ≠ 0 ∧ k.ftcmp.toNat ≤ k.ftimer ∧ k.events.length < Config.maxEvents) ∧
    (let s := { user with gangs := [{ oneGang with ending := true }] }
     s.gangs.find? (fun g => g.gid == 1 && g.ending) = some { oneGang with ending := true } ∧ s.exitHeld { oneGang with ending := true } = false ∧
     s.feHeld = [] ∧ oneGang.donek = 0) ∧
    user.gangs.find? (fun g => g.gid == 1 && g.ending) = none := by decide +kernel

theorem witness_MemoriesStayCanonical : Sound user ∧ ∃ t, Runs { user with agenda := [.event (.gangExit 9)] } t := by
  refine ⟨⟨(storable_of (s := user) (ls := []) (by decide +kernel)).wf, fun g hg => by cases hg⟩, _, rfl⟩

theorem witness_DecodeEncodeAgree :
    (WellFormed (.addi 5 0 100) ∧ encode (.addi 5 0 100) = some (32, 0x04500064)) ∧
    ∃ w, WellFormed (.vadd (plainWord 10)) ∧ encode (.vadd (plainWord 10)) = some (64, w) := ⟨by decide, _, by decide, rfl⟩

theorem witness_EncodeDecodeAgree :
    (0x04500064 < 2 ^ 32 ∧ decodeS 0x04500064 = some (.addi 5 0 100)) ∧
    (0x8004000000F00000 < 2 ^ 64 ∧ (decodeE 0x8004000000F00000).isSome = true) := by decide +kernel

/-- `user` whose front end moves next. -/
def fronting (f : Hart → Hart) : State := { user.onFocus f with agenda := [.front (.hart 0 0)] }

theorem witness_StepRunsDecoded :
    (let t := ({ fronting id with agenda := [] } : State).clock
     (fronting id).eft.clocks = true ∧ (fronting id).agenda = [.front (fronting id).focus] ++ [] ∧ t.due = none ∧ t.hart.run = .running ∧
     t.hart.blocks = [] ∧ t.aheadWord 1 t.hart.ctx.pc.toNat = none) ∧
    (let t := ({ fronting (fun h => { h with ahead := [(1, 0, 0x04500064)] }) with agenda := [] } : State).clock
     t.due = none ∧ t.aheadWord 1 t.hart.ctx.pc.toNat = some 0x04500064 ∧ decodeBytes (bytesOf 4 0x04500064) = some (.addi 5 0 100)) ∧
    (let s := lane user (.vadd (vw 10)) 8 0
     let t := s.clock
     t.due = none ∧ t.hart.run = .running ∧ (laneBlock t).idx < 63 ∧
     ((laneBlock t).words[(laneBlock t).idx]?.bind fun w => decodeE w.toNat) = some (.vadd (vw 10))) ∧
    (let budget := fun n : Nat => ({ user with eft := { user.eft with budgets := [(0, n)] } } : State)
     user.eft.budgets.lookup 0 = none ∧ (budget 0).eft.budgets.lookup 0 = some 0 ∧ (budget 5).eft.budgets.lookup 0 = some (4 + 1) ∧
     (budget 0).clock.spend = none ∧ (budget 5).clock.spend.isSome = true) ∧
    issuesCopy (.cp 1 2) = true ∧ fw.focus = .fw 0 := by decide +kernel

end Sys2Proof.Tests
end

section
/-! SUPPORT. Every operation of the shared layers keeps every memory in canonical form: one lemma per operation, in the order of the
model's files, each named after its operation so that a chain of operations reads as a chain of lemmas (R3, R16, R85, R360). -/

namespace Sys2Proof.Safety

open Sys2Proof Sys2Proof.Machine Sys2Proof.Laws

variable {s t : State} {i : Instr} {l : Loc} {ws : List (Loc × Byte)} {a : Agent} {cid gid coid part ep n m p q v : Nat}

/-! ### Results -/

/-- What a computation answers has a property. -/
def Yields {ε α : Type} (P : α → Prop) (r : Except ε α) : Prop := ∀ a, r = .ok a → P a

/-- The next state is sound. -/
def NextSound (r : Host.Outcome State Fault Refusal) : Prop := ∀ t, r = .next t → Sound t

section Results

variable {ε α β : Type} {P : α → Prop} {Q : β → Prop}

@[simp] theorem yields_ok {a : α} : Yields P (.ok a : Except ε α) ↔ P a := ⟨fun h => h a rfl, fun h _ e => Except.ok.inj e ▸ h⟩

@[simp] theorem yields_pure {a : α} : Yields P (pure a : Except ε α) ↔ P a := yields_ok

@[simp] theorem yields_error {e : ε} : Yields P (.error e : Except ε α) := fun _ h => nomatch h

theorem Yields.bind {r : Except ε β} {f : β → Except ε α} (hr : Yields Q r) (hf : ∀ b, Q b → Yields P (f b)) : Yields P (r >>= f) := by
  cases r with
  | error e => exact yields_error
  | ok b => exact hf b (hr b rfl)

theorem Yields.map {r : Except ε β} {f : β → α} (hr : Yields Q r) (hf : ∀ b, Q b → P (f b)) : Yields P (r.map f) := by
  cases r with
  | error e => exact yields_error
  | ok b => exact yields_ok.mpr (hf b (hr b rfl))

/-- A step that changes nothing the property speaks of. -/
theorem yields_bind_any {r : Except ε β} {f : β → Except ε α} (hf : ∀ b, Yields P (f b)) : Yields P (r >>= f) :=
  Yields.bind (Q := fun _ => True) (fun _ _ => trivial) fun b _ => hf b

@[simp] theorem nextSound_next : NextSound (.next t) ↔ Sound t := ⟨fun h => h t rfl, fun h _ e => by cases e; exact h⟩

@[simp] theorem nextSound_refused {r : Refusal} : NextSound (.refused r) := fun _ h => nomatch h

end Results

/-! ### Memories and cores -/

theorem Sound.of_same (h : Sound s) (hm : t.mem = s.mem) (hh : t.host = s.host) (hc : t.cores = s.cores) (hi : t.images = s.images) : Sound t := by
  unfold Sound MemoriesWf at *; rw [hm, hh, hc, hi]; exact h

theorem Sound.core (h : Sound s) : (s.core cid).spad.wf zeroByte = true := core_wf h.1 cid

theorem Sound.setCore (h : Sound s) {c : Core} (hc : c.spad.wf zeroByte = true) : Sound (s.setCore cid c) := ⟨setCore_wf h.1 cid hc, h.2⟩

theorem Sound.onCore (h : Sound s) {f : Core → Core} (hf : ∀ c, (f c).spad = c.spad := by exact fun _ => rfl) : Sound (s.onCore cid f) :=
  h.setCore (by rw [hf]; exact h.core)

theorem Sound.foldl {α : Type} {f : State → α → State} {l : List α} (h : Sound s) (hf : ∀ t a, Sound t → Sound (f t a)) : Sound (l.foldl f s) := by
  induction l generalizing s with
  | nil => exact h
  | cons a l ih => exact ih (hf s a h)

@[simp] theorem onMem_images (s : State) (l : Loc) (f : (Nat → Byte) → Nat → Mem → Mem) : (s.onMem l f).images = s.images := by
  unfold State.onMem; split <;> rfl

theorem Sound.onMem (h : Sound s) {f : (Nat → Byte) → Nat → Mem → Mem} (hf : ∀ d a m, m.wf d = true → (f d a m).wf d = true) :
    Sound (s.onMem l f) := ⟨onMem_wf h.1 l hf, by rw [onMem_images]; exact h.2⟩

theorem Sound.putByte (h : Sound s) {v : Byte} : Sound (s.putByte l v) := h.onMem fun _ a _ hm => setByte_wf hm a v

theorem Sound.putFull (h : Sound s) {f : Bool} : Sound (s.putFull l f) := h.onMem fun _ a _ hm => setFull_wf hm (a / 8) f

theorem Sound.putPoison (h : Sound s) {b : Bool} : Sound (s.putPoison l b) := h.onMem fun _ a _ hm => setPoison_wf hm (a / 8) b

theorem Sound.putBytes (h : Sound s) : Sound (s.putBytes ws) := h.foldl fun _ _ ht => ht.putByte

theorem Sound.putNum (h : Sound s) : Sound (s.putNum l n v) := h.putBytes

/-- The poison of some words ends. -/
theorem Sound.clearPoison (h : Sound s) {ls : List Loc} : Sound (ls.foldl (fun t l => if t.poisonAt l then t.putPoison l false else t) s) :=
  h.foldl fun t l ht => by split; exacts [ht.putPoison, ht]

theorem Sound.setHart (h : Sound s) {k : Hart} : Sound (s.setHart a k) := by unfold State.setHart; split <;> exact h

theorem Sound.onHart (h : Sound s) {f : Hart → Hart} : Sound (s.onHart a f) := h.setHart

theorem Sound.focusOn (h : Sound s) : Sound (s.focusOn a) := by unfold State.focusOn; split <;> exact h

theorem Sound.onQuad (h : Sound s) {f : Quad → Quad} : Sound (s.onQuad q f) := by unfold State.onQuad; split <;> exact h

/-! ### Registers, events and traps -/

theorem Sound.onFocus (h : Sound s) {f : Hart → Hart} : Sound (s.onFocus f) := h

theorem Sound.setCtx (h : Sound s) {c : Ctx} : Sound (s.setCtx c) := h

theorem Sound.setPc (h : Sound s) {w : Word} : Sound (s.setPc w) := h

theorem Sound.stepPc (h : Sound s) : Sound s.stepPc := h

theorem Sound.retire (h : Sound s) : Sound s.retire := by unfold State.retire; split <;> exact h

theorem Sound.resultMarked (h : Sound s) {d : Reg} {w : Word} {b : Bool} : Sound (s.resultMarked d w b) := Sound.retire (s := State.stepPc _) h

theorem Sound.result (h : Sound s) {d : Reg} {w : Word} {rs : List Reg} : Sound (s.result d w rs) := h.resultMarked

theorem Sound.later (h : Sound s) : Sound (s.later i) := h

theorem Sound.retry (h : Sound s) : Sound (s.retry i) := h

theorem Sound.postEvent (h : Sound s) {e : FwEvent} : Sound (s.postEvent q e) := h.onQuad

theorem Sound.sourced (h : Sound s) (ht : Sound t) : Sound (s.sourced i t) := by unfold State.sourced; split; exacts [h.retry, ht]

theorem Sound.postAsync (h : Sound s) {k : Trap} : Sound (s.postAsync cid k) := h.onCore fun c => by split <;> rfl

theorem Sound.alert (h : Sound s) {k : Alert} : Sound (s.alert k) := h

theorem Sound.doubleFault (h : Sound s) {k : Trap} : Sound (s.doubleFault k) := by
  unfold State.doubleFault
  dsimp only
  split
  · exact h.onFocus.postEvent
  · exact h.onFocus.alert

theorem Sound.forget (h : Sound s) : Sound s.forget := h

theorem Sound.trapEntry (h : Sound s) {k : Trap} {w : TrapAt} : Sound (s.trapEntry k w) := by
  unfold State.trapEntry; split; exacts [h.doubleFault, h.forget.onFocus]

theorem Sound.swordTrap (h : Sound s) {k : Trap} {w : Word} : Sound (s.swordTrap k w) := by
  unfold State.swordTrap; split; exacts [h.trapEntry, h.onFocus.trapEntry]

theorem Sound.trapReturn (h : Sound s) : Sound s.trapReturn := by
  unfold State.trapReturn; dsimp only; split <;> exact h

/-! ### Stores of the device, requests and sync words -/

theorem Sound.putOwn (h : Sound s) : Sound (s.putOwn ws) := h.putBytes

theorem Sound.putMasked (h : Sound s) : Sound (s.putMasked l n v) := h.putBytes

theorem Sound.transmit (h : Sound s) {r : OutReq} : Sound (s.transmit r) := by unfold State.transmit; split <;> exact h

theorem Sound.sendAs (h : Sound s) {op : ReqOp} {c : Cont} : Sound (s.sendAs cid part ep op c) := by
  unfold State.sendAs; exact Sound.transmit (by exact h)

theorem Sound.reroute (h : Sound s) {f : Way → Bool} : Sound (s.reroute f) :=
  h.foldl fun _ _ ht => Sound.transmit (by exact ht)

theorem Sound.addWaiter (h : Sound s) {w : Waiter} : Sound (s.addWaiter w) := by
  unfold State.addWaiter; split; exacts [h, by split <;> exact h]

theorem Sound.wake (h : Sound s) : Sound (s.wake l) :=
  Sound.foldl (s := { s with waiters := _ }) h fun t w ht => by split; exacts [ht, ht, ht, ht.sendAs]

theorem Sound.contributeAt (h : Sound s) : Sound (s.contributeAt l n) := by
  unfold State.contributeAt; dsimp only; split; exacts [h.putMasked.wake, h.putMasked]

theorem Sound.advanceAt (h : Sound s) : Sound (s.advanceAt l n) := h.putMasked.wake

theorem Sound.holdContribution (h : Sound s) {k : HeldContribution} : Sound (s.holdContribution k) := h

theorem Sound.reportUninit (h : Sound s) {w : Word} {who : Contributor} : Sound (s.reportUninit w who) := by
  unfold State.reportUninit; split; exacts [h.postAsync, h.postEvent, h]

theorem Sound.reportUnreachable (h : Sound s) {k : HeldContribution} {x : Trap} : Sound (s.reportUnreachable k x) := by
  unfold State.reportUnreachable; split; exacts [h.postAsync, h.postEvent, h]

theorem Sound.makeContribution (h : Sound s) {k : HeldContribution} : Yields Sound (s.makeContribution k) := by
  unfold State.makeContribution
  split
  · exact yields_error
  · split
    · exact yields_error
    · split
      · refine yields_ok.mpr ?_
        split
        exacts [h.contributeAt, h.advanceAt]
      · exact yields_ok.mpr h.reportUninit

theorem Sound.offer (h : Sound s) {k : HeldContribution} : Sound (s.offer k) := by
  unfold State.offer
  split
  · exact h.holdContribution
  · split
    · exact h.makeContribution _ ‹_›
    · exact h.holdContribution.retry
    · exact h.holdContribution.reportUnreachable

theorem Sound.contribute (h : Sound s) {w x : Word} {who : Contributor} {b : Bool} : Sound (s.contribute w n who part m b x) := by
  unfold State.contribute; split; exacts [h.sendAs, h.offer]

/-! ### The partition controller, the ports and stores -/

theorem Sound.setField (h : Sound s) {hi lo : Nat} : Sound (s.setField n hi lo v) := h.putNum

theorem Sound.endCommand (h : Sound s) {b : Bool} : Sound (s.endCommand p b) := by
  have hf := (h.setField (n := pcaWord p 7) (hi := 62) (lo := 62) (v := flag b)).setField (n := pcaWord p 7) (hi := 31) (lo := 0)
    (v := bits (s.dev8 (pcaWord p 7)) 31 0 + 1) |>.setField (n := pcaWord p 7) (hi := 63) (lo := 63) (v := 0)
  unfold State.endCommand; dsimp only; split; exacts [hf, hf.contribute]

theorem Sound.takeCommand (h : Sound s) : Sound (s.takeCommand p) := by
  unfold State.takeCommand
  dsimp only
  split
  · exact h
  · split
    · exact Sound.later (s := { State.setField _ _ _ _ _ with commands := _ }) h.setField.setField
    · exact h.endCommand

theorem Sound.setPortState (h : Sound s) : Sound (s.setPortState n v) := h.setField

theorem Sound.setPort (h : Sound s) {k : Port} : Sound (s.setPort n k) := by unfold State.setPort; split <;> exact h

theorem Sound.portError (h : Sound s) : Sound (s.portError n v) := h.setPortState.setField.reroute

theorem Sound.portPeer (h : Sound s) : Sound (s.portPeer n v) := by unfold State.portPeer; split; exacts [h.setField, h, h.portError]

theorem Sound.portLock (h : Sound s) : Sound (s.portLock n) := by
  unfold State.portLock; split; exacts [h.setPortState.setField.setPort, h]

theorem Sound.portStart (h : Sound s) : Sound (s.portStart n) := by unfold State.portStart; split; exacts [h.setPortState.reroute, h]

theorem Sound.portStop (h : Sound s) : Sound (s.portStop n) := h.setPortState.setPort.reroute

theorem Sound.portStore (h : Sound s) : Sound (s.portStore n m v) := by
  unfold State.portStore
  extract_lets u
  have hu : Sound u := by unfold u; split; exacts [h.portPeer, h]
  split
  exacts [hu.portLock, hu.portStart, hu.portStop, hu]

theorem Sound.storeHooks (h : Sound s) {old : State} : Sound (old.storeHooks s ws) := by
  unfold State.storeHooks
  refine (h.foldl fun t p ht => ?_).foldl fun _ _ ht => ht.portStore
  split; exacts [ht, ht.takeCommand]

theorem Sound.purgeNotices (h : Sound s) : Sound s.purgeNotices := by
  obtain ⟨⟨hm, hh, hc⟩, hi⟩ := h
  unfold State.purgeNotices
  split
  · exact ⟨⟨hm, hh, hc⟩, hi⟩
  · refine ⟨⟨hm, hh, fun p hp => ?_⟩, hi⟩
    obtain ⟨c, hcm, rfl⟩ := List.mem_map.mp hp
    exact hc c hcm

theorem Sound.purgeReports (h : Sound s) : Sound (s.purgeReports ws) := by unfold State.purgeReports; split <;> exact h

theorem Sound.rehandle (h : Sound s) : Sound (s.rehandle ws) :=
  h.foldl fun t c ht => by
    split
    · exact ht
    · extract_lets; split <;> exact ht

theorem Sound.rewalk (h : Sound s) : Sound (s.rewalk ws) := by
  unfold State.rewalk
  extract_lets lines on t1 t2 t3 t4
  have h1 : Sound t1 := h.foldl fun t c ht => by
    split
    · split <;> exact ht
    · exact ht
  have h2 : Sound t2 := by unfold t2; split <;> exact h1
  have h3 : Sound t3 := by unfold t3; split <;> exact h2
  have h4 : Sound t4 := h3.foldl fun t c ht => by split <;> exact ht
  refine h4.foldl fun t p ht => ?_
  extract_lets; split <;> exact ht

theorem Sound.perform (h : Sound s) : Yields Sound (s.perform ws) := by
  unfold State.perform
  split
  · exact yields_error
  · exact yields_ok.mpr h.putBytes.clearPoison.storeHooks.purgeReports.purgeNotices.rewalk.rehandle

end Sys2Proof.Safety
end

section
namespace Sys2Proof.Safety

open Sys2Proof Sys2Proof.Machine Sys2Proof.Laws

variable {s t : State} {i : Instr} {l : Loc} {ls : List Loc} {ws : List (Loc × Byte)} {a : Agent} {who : UnitOwner} {w : WaitFor}
  {k : Coro} {g : Gang} {msg : Msg} {op : ReqOp} {c : Cont} {cid gid coid part ep u n m p q v : Nat}

/-! ### Saved contexts -/

theorem Sound.putWords (h : Sound s) {bad : Nat → Bool} : Sound (s.putWords ls n bad) :=
  h.putOwn.foldl fun t i ht => by split; exacts [ht.putPoison, ht]

theorem Sound.writeRecord (h : Sound s) : Sound (s.writeRecord cid k ls) := h.putWords

theorem Sound.patchRecord (h : Sound s) : Sound (s.patchRecord cid k) := by
  unfold State.patchRecord
  split
  · exact h
  · exact h.foldl fun t f ht => by split; exacts [ht.putOwn, ht]

theorem Sound.onCoro (h : Sound s) {f : Coro → Coro} : Sound (s.onCoro cid gid coid f) := h.onCore

theorem Sound.onSaved (h : Sound s) {f : Ctx → Ctx} : Sound (s.onSaved cid gid coid f) := by
  unfold State.onSaved
  split
  · exact h
  · extract_lets c t
    have ht : Sound t := h.onCoro
    split
    · exact ht
    · split; exacts [ht.writeRecord, ht]

theorem Sound.onGang (h : Sound s) {f : Gang → Gang} : Sound (s.onGang part gid f) := h

/-! ### Units and requests -/

theorem Sound.draw (h : Sound s) (he : s.draw who ep u = some t) : Sound t := by
  unfold State.draw at he
  split at he <;> split at he <;> cases he <;> exact h

theorem Sound.queueFor (h : Sound s) : Sound (s.queueFor who ep u) := by unfold State.queueFor; extract_lets; split <;> exact h

theorem Sound.send (h : Sound s) : Sound (s.send cid ep op c) := h.sendAs

/-! ### Coroutines of a core -/

theorem Sound.spillOne (h : Sound s) : Yields Sound (s.spillOne cid) := by
  unfold State.spillOne
  extract_lets c
  split
  · exact yields_error
  · extract_lets b
    split
    · exact yields_error
    · refine yields_ok.mpr ?_
      split
      exacts [h.writeRecord.onCoro.later, h.writeRecord.onCoro]

theorem Sound.spill (h : Sound s) : Sound (s.spill cid n) := by
  induction n generalizing s with
  | zero => exact h
  | succ n ih =>
    unfold State.spill
    split
    · exact h.onCore
    · split
      · exact ih (h.spillOne _ ‹_›)
      · split
        exacts [h, h.onCore.postAsync]

theorem Sound.noRoom (h : Sound s) : Sound (s.noRoom cid n) := by
  unfold State.noRoom; split; exacts [h, h.onCore.postAsync]

theorem Sound.takeBack (h : Sound s) : Sound (s.takeBack cid n) := by
  induction n generalizing s with
  | zero => exact h
  | succ n ih =>
    unfold State.takeBack
    split
    · exact h
    · extract_lets t
      split
      · exact h.noRoom
      · exact ih (h.onCoro.spill.onCore)

theorem Sound.respill (h : Sound s) : Sound (s.respill cid) := by unfold State.respill; split; exacts [h.spill, h]

theorem Sound.fetchNext (h : Sound s) : Sound (s.fetchNext cid) := by unfold State.fetchNext; extract_lets; split <;> exact h

theorem Sound.kickInbox (h : Sound s) : Sound (s.kickInbox cid) := by
  unfold State.kickInbox
  extract_lets c s1 s2
  have h1 : Sound s1 := by unfold s1; split <;> exact h
  have h2 : Sound s2 := by unfold s2; split <;> exact h1
  split <;> exact h2

theorem Sound.save (h : Sound s) {met tiles : Bool} : Sound (s.save w met n tiles) := by
  unfold State.save
  split
  · extract_lets now r asked s1 s2 s3 s4
    have h1 : Sound s1 := h.onCoro
    have h2 : Sound s2 := by unfold s2; clear_value r; split; exacts [h1.onCore.kickInbox, h1]
    have h4 : Sound s4 := by unfold s4; split; exacts [h2.forget.onFocus.spill.onCore, h2.forget.onFocus.spill]
    split <;> exact h4
  · exact h

theorem Sound.saveFull (h : Sound s) {met : Bool} : Sound (s.saveFull w met) := h.save

theorem Sound.completeWait (h : Sound s) {b : Bool} : Sound (s.completeWait w b) := by
  unfold State.completeWait
  split
  · exact h.trapEntry
  · split; exacts [h.result, h.result, h]

theorem Sound.startCoro (h : Sound s) : Sound (s.startCoro cid k) := by
  unfold State.startCoro
  extract_lets due s1 s2 s3 new
  have h3 : Sound s3 := h.onCoro.onFocus.fetchNext
  split; exacts [h3.completeWait, h3]

theorem Sound.ready (h : Sound s) : Sound (s.ready cid gid coid) := by
  unfold State.ready; extract_lets now spilled s1; split <;> exact h.onCoro

theorem Sound.unitsHeld (h : Sound s) {x : UnitWait} : Sound (s.unitsHeld x) := by
  unfold State.unitsHeld; split; exacts [h.ready, h.onHart, h, h, h]

theorem Sound.grant (h : Sound s) : Sound (s.grant ep u) := Sound.foldl (by exact h) fun _ _ ht => ht.unitsHeld

theorem Sound.dropUnits (h : Sound s) {f : UnitWait → Bool} : Sound (s.dropUnits f) :=
  Sound.foldl (by exact h) fun _ _ ht => by split; exacts [ht, ht.grant]

theorem Sound.dropPushes (h : Sound s) {f : Push → Bool} : Sound (s.dropPushes f) := Sound.dropUnits (by exact h)

/-- Both outcomes of a computation that says in its state why it did not succeed. -/
def BothSound (r : Except State State) : Prop :=
  match r with
  | .ok t | .error t => Sound t

theorem Sound.takeIn (h : Sound s) {r : Except State State} (he : s.takeIn cid k = r) : BothSound r := by
  subst r
  unfold State.takeIn
  extract_lets t
  have ht : Sound t := h.onCore.spill
  split; exacts [h.noRoom, ht.onCore]

theorem Sound.create (h : Sound s) {x : Ctx} {o : Option (Nat × Nat)} {r : Except State State} (he : s.create g cid n x o = r) :
    BothSound r := by
  subst r
  unfold State.create
  extract_lets
  split
  next heq => exact Sound.onGang (h.takeIn heq)
  next heq => exact h.takeIn heq

theorem Sound.retireCoro (h : Sound s) : Sound (s.retireCoro cid gid coid) := by
  unfold State.retireCoro
  extract_lets r g left s1 s2 s3 s4
  have h2 : Sound s2 := Sound.onCore (h.foldl fun _ _ ht => ht.postAsync)
  have h3 : Sound s3 := by unfold s3; clear_value r; split; exacts [h2.onCore.kickInbox, h2]
  have h4 : Sound s4 := h3.kickInbox.fetchNext.respill
  clear_value g s4
  split
  · split <;> exact h4
  · exact h4

/-! ### Messages -/

theorem Sound.putRing (h : Sound s) {bs : List Byte} : Sound (s.putRing cid n bs) :=
  h.putBytes.foldl fun t i ht => by extract_lets l; split; exacts [ht.putPoison, ht]

theorem Sound.inboxArrived (h : Sound s) : Sound (s.inboxArrived cid) := by
  unfold State.inboxArrived; exact Sound.foldl h.onCore fun _ _ ht => ht.later

theorem Sound.placeInbox (h : Sound s) (he : s.placeInbox cid msg = some t) : Sound t := by
  unfold State.placeInbox at he
  extract_lets at he
  split at he
  · cases he; exact (Sound.setCore h (by exact h.core)).putRing.inboxArrived
  · split at he
    · cases he; exact (Sound.setCore h (by exact h.core)).putRing.putRing.inboxArrived
    · cases he

theorem Sound.holdSource (h : Sound s) : Sound (s.holdSource cid n) := by
  unfold State.holdSource
  extract_lets t f
  have ht : Sound t := h.onCore
  exact ht

theorem Sound.kickGenerated (h : Sound s) : Sound (s.kickGenerated cid) := by unfold State.kickGenerated; split <;> exact h

/-- The states an arriving message leaves. -/
def PlacedSound (r : Placed) : Prop :=
  match r with
  | .placed t | .kept t | .breach t => Sound t
  | .wait => True

@[simp] theorem refuseMsg_spad (c : Core) : (c.refuseMsg msg).spad = c.spad := by unfold Core.refuseMsg; split <;> rfl

theorem Sound.arrive (h : Sound s) {b : Bool} {r : Placed} (he : s.arrive cid msg b = r) : PlacedSound r := by
  subst r
  have hk : Sound (s.onCore cid fun c => { c with generated := c.generated ++ [msg] }) := h.onCore
  have hr : Sound (s.onCore cid fun c => c.refuseMsg msg) := h.onCore fun c => refuseMsg_spad c
  unfold State.arrive
  extract_lets c keep refused full
  split; · exact hk
  split; · trivial
  split; · exact hr
  split; · trivial
  split
  next t ht =>
    have ht : Sound t := by
      split at ht; exacts [h.placeInbox ht, nomatch ht]
    exact ht.onCore.kickGenerated
  next =>
    split; · exact hk
    split; · exact hr.holdSource.postAsync
    split
    · split; exacts [hk, hr.holdSource.postAsync]
    · exact (h.putOwn.onCore).later.kickGenerated

theorem Sound.generate (h : Sound s) {bs : List Byte} : Sound (s.generate cid n bs) := by
  unfold State.generate
  split
  next j u hu =>
    have hu : Sound u := by cases hu; exact h
    split
    next heq => exact hu.arrive heq
    next heq => exact hu.arrive heq
    next heq => exact hu.arrive heq
    next => exact hu.onCore.retry

theorem Sound.resendKept (h : Sound s) : Sound (s.resendKept ep) := by unfold State.resendKept; split <;> exact h

theorem Sound.releaseHolds (h : Sound s) : Sound (s.releaseHolds cid) := by
  unfold State.releaseHolds
  extract_lets hs t still f t'
  have ht : Sound t' := Sound.of_same (s := t) h.onCore rfl rfl rfl rfl
  split; exacts [ht.resendKept, ht]

theorem Sound.respond (h : Sound s) {r : Resp} : Sound (s.respond n m p r) := by
  unfold State.respond; split
  · exact h
  · split <;> exact h

theorem Sound.refuse (h : Sound s) : Sound (s.refuse n m p) := by
  unfold State.refuse; split
  · exact h
  · split <;> exact h

/-! ### Commits -/

theorem Sound.sendLines (h : Sound s) {f : CombLine → Bool} : Sound (s.sendLines cid f) := h.onCore

theorem Sound.sendQueued (h : Sound s) : Sound (s.sendQueued cid n) := by unfold State.sendQueued; split <;> exact h

@[simp] theorem combine_spad (c : Core) (f : Nat → Nat) (own : Nat × Nat) (b : Bool) (x : Byte) : (c.combine f ep own b n x).spad = c.spad := by
  unfold Core.combine; extract_lets hit first c1 c2 put; unfold c2; split
  · rfl
  · unfold c1; dsimp only; split <;> rfl

theorem foldl_spad {α : Type} {f : Core → α → Core} (hf : ∀ c x, (f c x).spad = c.spad) (l : List α) (c : Core) : (l.foldl f c).spad = c.spad := by
  induction l generalizing c with
  | nil => rfl
  | cons x l ih => exact (ih _).trans (hf c x)

@[simp] theorem combineElem_spad (c : Core) (f : Nat → Nat) (own : Nat × Nat) (b : Bool) (bs : List Byte) :
    (c.combineElem f ep own b n bs).spad = c.spad := foldl_spad (fun _ _ => combine_spad ..) _ _

theorem Sound.commitRemote (h : Sound s) {x : VecReq} {ns : List Nat} : Yields Sound (s.commitRemote ep x ns) := by
  unfold State.commitRemote
  extract_lets w c j d e q
  split
  · have hd : d.spad.wf zeroByte = true := by unfold d; rw [foldl_spad fun _ _ => combineElem_spad ..]; exact h.core
    split; exacts [yields_error, yields_ok.mpr (h.setCore hd).sendQueued]
  · split
    · exact yields_error
    · exact yields_ok.mpr (Sound.sendQueued (Sound.setCore h (by exact h.core)))

theorem Sound.notice (h : Sound s) {x : Nat × Nat} : Sound (s.notice x) := by
  unfold State.notice
  split
  · exact h
  · split; exacts [h, Sound.generate h.onCore]

theorem Sound.commitOne (h : Sound s) {x : Pend} : Yields Sound (s.commitOne x) := by
  unfold State.commitOne
  extract_lets u go
  have hg : ∀ r, Yields Sound (go r) := fun _ => by
    have hu : Sound u := h.foldl fun _ _ ht => ht.notice
    refine hu.perform.bind fun u1 hu => ?_
    extract_lets u2
    have h1 : Sound u2 := hu.clearPoison
    split
    · exact yields_pure.mpr (h1.foldl fun _ _ ht => ht.putPoison)
    · exact yields_pure.mpr h1
  split; exacts [yields_error, hg ()]

theorem Sound.commitGroup (h : Sound s) {x : List Pend} : Yields Sound (s.commitGroup x) := by
  unfold State.commitGroup
  split
  · exact yields_ok.mpr h
  · split; exacts [h.commitOne, h.commitRemote]

theorem Sound.commitList (h : Sound s) {x : List Pend} : Sound (s.commitList n x).1 := by
  induction n generalizing s x with
  | zero => exact h
  | succ n ih =>
    unfold State.commitList
    split
    · exact h
    · split; exacts [ih (h.commitGroup _ ‹_›), h]

theorem Sound.commitThese (h : Sound s) {x : List Pend} : Sound (s.commitThese x) := h.onFocus.commitList.onFocus

theorem Sound.commitSome (h : Sound s) : Sound s.commitSome := h.commitThese

theorem Sound.commitAll (h : Sound s) : Yields Sound s.commitAll := by
  unfold State.commitAll; split; exacts [yields_ok.mpr h.commitSome, yields_error]

theorem Sound.closeStrip (h : Sound s) : Yields Sound s.closeStrip := by
  unfold State.closeStrip; split; exacts [yields_error, h.commitAll.bind fun _ hu => yields_pure.mpr hu.onFocus]

theorem Sound.settle (h : Sound s) {r : Except Stop State} (hr : Yields Sound r) : NextSound (s.settle r) := by
  unfold State.settle
  split
  · exact nextSound_next.mpr (yields_ok.mp hr)
  · exact nextSound_next.mpr h
  · split; exacts [nextSound_next.mpr h, nextSound_next.mpr h.swordTrap]

theorem Sound.sword (h : Sound s) {f : State → Except Stop State} (hf : Yields Sound (f s)) : NextSound (s.sword f) :=
  h.settle (by split; exacts [yields_error, hf])

theorem Sound.keepWord (h : Sound s) : Sound s.keepWord := by unfold State.keepWord; split <;> exact h

theorem Sound.closeSome (h : Sound s) : Sound s.closeSome := by
  unfold State.closeSome; extract_lets t; split; exacts [h.keepWord.commitSome.onFocus, h.commitSome]

theorem Sound.closing (h : Sound s) {f : State → Except Stop State} (hf : ∀ u, Sound u → Yields Sound (f u)) : NextSound (s.closing f) := by
  unfold State.closing
  split
  · exact nextSound_next.mpr (by split; exacts [h.closeSome, h])
  · exact nextSound_next.mpr h.swordTrap
  · have hu := h.closeStrip _ ‹_›; exact hu.settle (hf _ hu)

theorem Sound.illegal (h : Sound s) {x : Word} : NextSound (s.illegal x) := by
  unfold State.illegal; split; exacts [nextSound_next.mpr h, nextSound_next.mpr h.swordTrap]

variable {r : Host.Outcome State Fault Refusal}

theorem Sound.checked (h : Sound s) (hr : NextSound r) : NextSound (s.checked i r) := by
  unfold State.checked; split; exacts [hr, h.illegal]

theorem Sound.clean (h : Sound s) {x : Except Trap Unit} (hr : NextSound r) : NextSound (s.clean x r) := by
  unfold State.clean; split; exacts [hr, h.sword yields_error]

theorem Sound.unpoisoned (h : Sound s) {rs : List Reg} (hr : NextSound r) : NextSound (s.unpoisoned rs r) := h.clean hr

end Sys2Proof.Safety
end

section
namespace Sys2Proof.Safety

open Sys2Proof Sys2Proof.Machine Sys2Proof.Laws

variable {s t : State} {i : Instr} {l : Loc} {ls : List Loc} {ws : List (Loc × Byte)} {x y : Word} {a b d e k : Reg} {ep u n m p q v : Nat}
  {c z : Bool} {f : State → Except Stop State}

/-! ### Scalar words -/

theorem Sound.next (h : Sound s) : NextSound (.next s) := nextSound_next.mpr h

theorem Sound.branch (h : Sound s) {o : BitVec 15} : Sound (s.branch c o) := by
  unfold State.branch; split; exacts [h.setPc.retire, h.stepPc.retire]

theorem Sound.branchOn (h : Sound s) {rs : List Reg} {o : BitVec 15} : NextSound (s.branchOn rs c o) := h.unpoisoned h.branch.next

theorem Sound.execLoopv (h : Sound s) {o : BitVec 15} : NextSound (execLoopv a o s) := h.clean (Sound.branch (by exact h)).next

theorem Sound.link (h : Sound s) : Sound (s.link d) := h

theorem Sound.execJal (h : Sound s) {o : BitVec 20} : NextSound (execJal d o s) := h.link.setPc.retire.next

theorem Sound.execJalr (h : Sound s) {o : BitVec 15} : NextSound (execJalr d a o s) :=
  h.unpoisoned (by split; exacts [h.link.setPc.retire.next, h.sword yields_error])

theorem Sound.execLoopst (h : Sound s) {sc : BitVec 5} {o : BitVec 15} : NextSound (execLoopst a sc o s) := by
  refine h.checked ?_
  extract_lets lps ctx set n left p t
  have hs : ∀ w, Sound (set w) := fun _ => h.setCtx
  split
  · refine h.unpoisoned ?_
    split
    · exact h.sword yields_error
    · split; exacts [(hs _).setPc.retire.next, (hs _).stepPc.retire.next]
  · refine Sound.next (Sound.retire ?_)
    split; exacts [(hs _).setPc, (hs _).stepPc]

theorem Sound.raise (h : Sound s) : Sound (s.raise n) := h

/-! ### The frame of E-words -/

theorem Sound.holdFault (h : Sound s) {x : Trap} : Sound (s.holdFault x) := h

theorem Sound.ewordTrap (h : Sound s) {x : Block} {y : Trap} {w : Word} : NextSound (s.ewordTrap x y w) := by
  unfold State.ewordTrap
  extract_lets
  split
  · exact h.next
  · split
    · exact h.onFocus.trapEntry.next
    · split
      · exact h.holdFault.commitSome.next
      next hc => exact (Sound.trapEntry (Sound.onFocus (h.commitAll _ hc))).next

theorem Sound.nextWord (h : Sound s) : Sound s.nextWord := by unfold State.nextWord; split <;> exact h

theorem Sound.nextRho (h : Sound s) : Sound (s.nextRho c) := h

theorem Sound.checkGroups {r : Done} (h : Sound r.state) : Sound (s.checkGroups c z r) := h

theorem Sound.complete {r : Done} (h : Sound r.state) : Sound (s.complete c z r) := Sound.nextWord (by exact h)

/-- An E-word whose own effect leaves a sound state does so in its block (R142). -/
theorem Sound.eword (h : Sound s) {f : Block → EWord → Except Stop Done} (hf : ∀ b w, Yields (fun r => Sound r.state) (f b w)) :
    NextSound (s.eword i f) := by
  unfold State.eword
  split
  · extract_lets bad
    split; · exact h.next
    split; · exact h.ewordTrap
    split; · exact h.ewordTrap
    split; · exact Sound.next h.nextRho.nextWord
    split
    next r hr =>
      have hr : Sound r.state := by
        split at hr
        · exact hf _ _ _ hr
        · split at hr; exacts [(nomatch hr), hf _ _ _ hr]
      split
      · extract_lets u
        have hu : Sound u := Sound.checkGroups hr
        split; exacts [hu.ewordTrap, hu.holdFault.next]
      · split; exacts [hr.next, Sound.next (Sound.complete hr)]
    next => exact h.next
    next => exact h.ewordTrap
  · exact h.illegal

/-! ### Loads and stores -/

theorem Yields.lift {α : Type} {P : α → Prop} {r : Except Trap α} (h : Yields P r) : Yields P (Machine.lift r) := by
  cases r with
  | error _ => exact yields_error
  | ok _ => exact yields_ok.mpr (yields_ok.mp h)

theorem Sound.tierUse (h : Sound s) {x : Spot} : Yields Sound (s.tierUse x n) := by
  unfold State.tierUse
  split
  · exact yields_ok.mpr h
  · split
    · split; exacts [yields_ok.mpr (h.foldl fun _ _ ht => ht.notice), yields_error]
    · exact yields_error

theorem Sound.loadNum (h : Sound s) : Yields (fun r => Sound r.1) (s.loadNum n m v) :=
  yields_bind_any fun _ => yields_bind_any fun _ => h.tierUse.bind fun _ ht => yields_bind_any fun _ => yields_pure.mpr ht

theorem Sound.storeNum (h : Sound s) : Yields Sound (s.storeNum n m v c) :=
  yields_bind_any fun _ => yields_bind_any fun _ => h.tierUse.lift.bind fun _ ht => ht.perform.bind fun _ hu => yields_pure.mpr (by
    split; exacts [hu.foldl fun _ _ ht => ht.putPoison, hu])

theorem Sound.loadInto (h : Sound s) {o : BitVec 15} : NextSound (s.loadInto d a o n c) :=
  h.sword <| yields_bind_any fun _ => h.loadNum.lift.bind fun _ ht => yields_pure.mpr ht.result

theorem Sound.storeFrom (h : Sound s) {o : BitVec 15} : NextSound (s.storeFrom d a o n) :=
  h.closing fun _ hu => yields_bind_any fun _ => hu.storeNum.bind fun _ ht => yields_pure.mpr ht.stepPc.retire

/-! ### Synchronization -/

theorem Sound.acting (h : Sound s) {r : Host.Outcome State Fault Refusal} (hr : NextSound r) : NextSound (s.acting i c r) := by
  unfold State.acting; split; exacts [h.illegal, hr]

theorem Sound.sendOwn (h : Sound s) {g : CombLine → Bool} : Yields Sound (s.sendOwn g) := by
  unfold State.sendOwn; extract_lets t; split; exacts [yields_error, yields_ok.mpr h.sendLines.later]

theorem Sound.behindStores (h : Sound s) (hf : Yields Sound (f s)) : Yields Sound (s.behindStores ep f) := by
  unfold State.behindStores
  split; · exact hf
  split; · exact h.sendOwn
  split; exacts [yields_error, hf]

theorem Sound.behindOwn (h : Sound s) (hf : Yields Sound (f s)) : Yields Sound (s.behindOwn ep n m f) := by
  unfold State.behindOwn
  extract_lets
  split; · exact hf
  split; · exact h.sendOwn
  split; exacts [yields_error, hf]

theorem Sound.released (h : Sound s) (hf : Yields Sound (f s)) : Yields Sound (s.released f) := by
  unfold State.released
  split; · exact hf
  split; · exact h.sendOwn
  split; exacts [yields_error, hf]

theorem Sound.drawn (h : Sound s) (hf : ∀ u, Sound u → Yields Sound (f u)) : Yields Sound (s.drawn ep n f) := by
  unfold State.drawn
  extract_lets who t
  split
  · exact hf _ (h.draw ‹_›)
  · split; exacts [yields_ok.mpr h.queueFor.saveFull, yields_ok.mpr h.queueFor.onFocus]

theorem Sound.ask (h : Sound s) {o : ReqOp} {j : Cont} : Sound (s.ask ep o j) := h.send.onFocus

theorem Sound.register (h : Sound s) : Sound (s.register n m c x) := by
  unfold State.register
  split
  · exact h.send
  · split; exacts [h, h.addWaiter]

theorem Sound.awaitTokens (h : Sound s) {ts : List Word} : Yields Sound (s.awaitTokens ts c x d y z) := by
  refine yields_bind_any fun reads => ?_
  split
  · exact h.behindOwn (yields_ok.mpr h.ask)
  · extract_lets u mark clear w view t
    split
    · exact yields_pure.mpr h.forget.result.onFocus
    · split
      · exact yields_pure.mpr h.forget.result.onFocus
      · split
        · exact yields_pure.mpr (Sound.save (h.forget.foldl fun _ _ ht => ht.register))
        · exact yields_pure.mpr h.forget.onFocus

theorem Sound.execAwait (h : Sound s) : NextSound (execAwait k a c s) :=
  h.checked <| h.acting <| h.closing fun _ hu => yields_bind_any fun _ => by split; exacts [yields_error, hu.awaitTokens]

theorem Sound.tokenList (h : Sound s) : Yields (fun r => Sound r.1) (s.tokenList x n m) := by
  induction n generalizing s m with
  | zero => exact yields_ok.mpr h
  | succ n ih => exact h.loadNum.bind fun _ ht => (ih ht).bind fun _ hu => yields_pure.mpr hu

theorem Sound.issue (h : Sound s) : Sound s.issue := h

theorem Sound.issueTokens (h : Sound s) : Yields (fun r => Sound r.1) (s.issueTokens x n) := by
  unfold State.issueTokens
  split; exacts [yields_ok.mpr h, h.tokenList.map fun _ hr => hr.onFocus]

theorem Sound.execAwaitany (h : Sound s) {o : BitVec 6} : NextSound (execAwaitany d a b o c z s) :=
  h.checked <| h.acting <| h.closing fun u hu => yields_bind_any fun _ => by
    extract_lets u'
    have hu : Sound u' := hu.issue
    split
    · have ht := hu.issueTokens _ ‹_›
      split; exacts [yields_ok.mpr ht, Sound.awaitTokens ht]
    · split; exacts [yields_ok.mpr hu, yields_error]

theorem Sound.execSinit (h : Sound s) : NextSound (execSinit d a b s) :=
  h.checked <| h.closing fun u hu => yields_bind_any fun _ => by
    extract_lets va xb
    refine yields_bind_any fun r => ?_
    split
    · exact hu.perform.bind fun _ ht => yields_pure.mpr ht.wake.result
    · exact yields_error

theorem Sound.execExpect (h : Sound s) : NextSound (execExpect a b s) :=
  h.checked <| h.closing fun u hu => yields_bind_any fun _ => by
    extract_lets va
    refine yields_bind_any fun r => ?_
    split
    · refine yields_bind_any fun _ => ?_
      extract_lets w1 sum
      split; · exact yields_error
      split; · exact yields_error
      exact hu.perform.bind fun _ ht => yields_pure.mpr ht.stepPc.retire
    · exact yields_error

theorem Sound.execArrive (h : Sound s) : NextSound (execArrive k b s) :=
  h.checked <| h.closing fun u hu => yields_bind_any fun _ => by
    extract_lets tok n
    split; · exact yields_error
    split; · exact yields_error
    refine hu.released ?_
    split
    · exact hu.drawn fun _ ht => yields_ok.mpr ht.ask
    · refine yields_bind_any fun _ => yields_bind_any fun _ => ?_
      split; exacts [yields_error, yields_pure.mpr hu.contributeAt.stepPc.retire]

theorem Sound.execSgen (h : Sound s) : NextSound (execSgen d k s) :=
  h.checked <| h.closing fun u hu => yields_bind_any fun _ => by
    extract_lets tok
    split; · exact yields_error
    split
    · exact hu.behindOwn (hu.drawn fun _ ht => yields_ok.mpr ht.ask)
    · exact yields_bind_any fun _ => yields_pure.mpr hu.result

theorem Sound.execTkmake (h : Sound s) : NextSound (execTkmake d a b s) :=
  h.checked <| h.closing fun _ hu => yields_bind_any fun _ => yields_pure.mpr hu.result

/-! ### Full/empty operations and atomics -/

theorem Sound.feDone (h : Sound s) {who : FeOwner} : Sound (s.feDone who x) := by
  unfold State.feDone; split; exacts [h.onSaved.onCoro.ready, h.onHart, h.respond]

theorem Sound.feAgain (h : Sound s) {who : FeOwner} : Sound (s.feAgain who) := by
  unfold State.feAgain; split; exacts [h.onCoro.ready, h.onHart, h.refuse]

theorem Sound.feSettle (h : Sound s) : Sound (s.feSettle l n) := by
  induction n generalizing s with
  | zero => exact h
  | succ n ih =>
    unfold State.feSettle
    split
    · exact h
    next f hf =>
      extract_lets u t v
      have hu : Sound u := h
      split
      · exact ih hu.feAgain
      · have ht : Sound t := by
          unfold t
          split
          · split; exacts [hu.perform _ ‹_›, hu]
          · exact hu
        exact ih ht.putFull.feDone

/-- What a full/empty operation at its home unit leaves. -/
def FeSound (r : FeResult) : Prop :=
  match r with
  | .done t _ | .held t => Sound t

theorem Sound.feAt (h : Sound s) {ns : List Nat} {who : FeOwner} : Yields FeSound (s.feAt l ns n x who) := by
  unfold State.feAt
  split; · exact yields_error
  split; · exact yields_ok.mpr (by exact h)
  split
  · exact yields_ok.mpr h.putFull.feSettle
  · exact h.perform.bind fun _ ht => yields_pure.mpr ht.putFull.feSettle
  · exact yields_ok.mpr h.putFull.feSettle
  · exact yields_ok.mpr h.putFull.feSettle

theorem Sound.fe (h : Sound s) : Yields Sound (s.fe n d a e c x) := by
  unfold State.fe
  extract_lets va ep who
  split
  · split; · exact yields_error
    split; · exact yields_error
    split
    · exact yields_ok.mpr h.saveFull
    · exact h.behindOwn (h.drawn fun _ ht => yields_ok.mpr ht.ask)
  · refine yields_bind_any fun _ => yields_bind_any fun _ => yields_bind_any fun _ => ?_
    split
    · extract_lets go
      have hg : ∀ r, Yields Sound (go r) := fun _ => h.feAt.bind fun r hr => by
        split
        · refine yields_pure.mpr ?_
          split; exacts [Sound.result hr, (Sound.stepPc hr).retire]
        · split; exacts [yields_pure.mpr (Sound.saveFull hr), yields_pure.mpr (Sound.onFocus hr)]
      split; exacts [yields_bind_any fun _ => hg (), hg ()]
    · exact yields_error

theorem Sound.execLdfe (h : Sound s) : NextSound (execLdfe d a e c s) :=
  h.checked <| h.closing fun _ hu => yields_bind_any fun _ => hu.fe

theorem Sound.execStfe (h : Sound s) : NextSound (execStfe d a e c s) :=
  h.checked <| h.closing fun _ hu => yields_bind_any fun _ => hu.released hu.fe

theorem Sound.execFeset (h : Sound s) : NextSound (execFeset a e c s) :=
  h.checked <| h.closing fun _ hu => yields_bind_any fun _ => hu.fe

theorem Sound.execFeclr (h : Sound s) : NextSound (execFeclr a e c s) :=
  h.checked <| h.closing fun _ hu => yields_bind_any fun _ => hu.fe

theorem Sound.atomicAt (h : Sound s) : Yields (fun r => Sound r.1) (s.atomicAt ls n x y) :=
  h.perform.bind fun _ ht => yields_pure.mpr ht

theorem Sound.execAmo (h : Sound s) {o : BitVec 3} {r : BitVec 2} {j : BitVec 4} : NextSound (execAmo d a b o r c j s) :=
  h.checked <| h.closing fun u hu => yields_bind_any fun _ => by
    extract_lets n act
    have ha : Yields Sound (act u) := yields_bind_any fun _ => yields_bind_any fun _ => yields_bind_any fun _ => yields_bind_any fun _ =>
      hu.atomicAt.bind fun _ ht => yields_pure.mpr ht.result
    split; exacts [hu.released ha, ha]

theorem Sound.execRatom (h : Sound s) {r : BitVec 2} {j : BitVec 4} : NextSound (execRatom d a b r c j s) :=
  h.checked <| h.closing fun u hu => yields_bind_any fun _ => by
    extract_lets va n act
    have ha : Yields Sound (act u) := hu.behindOwn (hu.drawn fun _ ht => yields_ok.mpr ht.ask)
    split; · exact yields_error
    split; · exact yields_error
    split; exacts [hu.released ha, ha]

theorem Sound.fenced (h : Sound s) : Sound s.fenced := h.onFocus.stepPc.retire

/-- The fences that wait for the stores of the agent in view (R113, R117). -/
theorem Sound.releaseFence (h : Sound s) : NextSound (s.checked i <| s.closing fun s => s.released fun s => .ok s.fenced) :=
  h.checked <| h.closing fun _ hu => hu.released (yields_ok.mpr hu.fenced)

theorem Sound.execFenceAcq (h : Sound s) {j : BitVec 3} : NextSound (execFenceAcq j s) :=
  h.checked <| h.closing fun _ hu => by split; exacts [hu.sendOwn, yields_ok.mpr hu.fenced]

end Sys2Proof.Safety
end

section
namespace Sys2Proof.Safety

open Sys2Proof Sys2Proof.Machine Sys2Proof.Laws

variable {s t : State} {i : Instr} {l : Loc} {ls : List Loc} {ws : List (Loc × Byte)} {x y : Word} {a b d e k : Reg}
  {cp : Copy} {pg : PageIn} {tr : Trap} {cid gid coid ep u n m p q v : Nat} {c z : Bool} {f : State → Except Stop State}

/-! ### Copies -/

theorem Sound.setCopy (h : Sound s) : Sound (s.setCopy cp) := h

theorem Sound.dropCopy (h : Sound s) : Sound (s.dropCopy x) := Sound.dropUnits (by exact h)

theorem Sound.kickExits (h : Sound s) : Sound s.kickExits := h.foldl fun _ _ ht => ht.later

theorem Sound.copyDone (h : Sound s) : Sound (s.copyDone x) := by
  unfold State.copyDone
  split
  · exact h
  · extract_lets o t
    have ht : Sound t := h.dropCopy.kickExits
    split
    · exact h
    · split; exacts [ht.generate, ht]

theorem Sound.leaveFe (h : Sound s) : Sound (s.leaveFe cid gid coid) := h

theorem Sound.abortCopy (h : Sound s) {o : Cause} : Sound (s.abortCopy cp o x) := by
  unfold State.abortCopy
  extract_lets r s1
  have h1 : Sound s1 := h.dropCopy.kickExits
  split
  · exact h1
  · split
    · exact h1.postAsync
    · extract_lets s2
      have h2 : Sound s2 := h1.onCoro
      split
      · split; exacts [h2, h2.leaveFe.ready]
      · exact h2

theorem Sound.onRegs (h : Sound s) {g : Ctx → Ctx} : Sound (s.onRegs cid gid coid g) := by
  unfold State.onRegs
  split
  · exact h
  · extract_lets r
    clear_value r
    split; exacts [h.onHart, h.onSaved]

theorem Sound.landReg (h : Sound s) {bs : List Byte} {ns : List Nat} : Sound (s.landReg cp n bs ns) := by
  unfold State.landReg
  extract_lets g k
  split
  · exact h.onRegs
  · split; exacts [h.onHart, h]

theorem Sound.takeFrame (h : Sound s) : Sound (s.takeFrame p n).2 := by
  unfold State.takeFrame
  extract_lets
  split
  · exact h
  · split
    · exact h
    · split; exacts [h, h.putOwn]

theorem Sound.findFrame (h : Sound s) : Sound (s.findFrame pg) := by
  unfold State.findFrame
  have hf := h.takeFrame (p := pg.part) (n := pg.size)
  split
  next u heq =>
    rw [heq] at hf
    extract_lets u'
    have hu : Sound u' := hf
    split; exacts [hu, hu.postAsync]
  next fr u heq =>
    rw [heq] at hf
    exact Sound.later (Sound.generate (by exact hf))

theorem Sound.holdCopy (h : Sound s) : Sound (s.holdCopy cp tr) := by
  unfold State.holdCopy; extract_lets r s1; split; exacts [h.setCopy, h.setCopy.postAsync]

theorem Sound.meetTier (h : Sound s) {pr : Nat × Nat} : Sound (s.meetTier cp n pr) := by
  unfold State.meetTier
  split
  · exact h.holdCopy
  · extract_lets s1 g
    have h1 : Sound s1 := h.setCopy
    split
    · exact h1
    · split; exacts [h1, Sound.findFrame (by exact h1)]

theorem Sound.execPageInFrameRetry (h : Sound s) : NextSound (execPageInFrameRetry n s) :=
  Sound.next (h.foldl fun _ _ ht => by split; exacts [ht.findFrame, ht])

theorem Sound.fillFrame (h : Sound s) : Sound (s.fillFrame n m) := ⟨fillFrame_wf h.1 n m, h.2⟩

theorem Sound.carryPoison (h : Sound s) : Sound (s.carryPoison n m v) := h.foldl fun _ _ ht => ht.putPoison

theorem Sound.releasePage (h : Sound s) : Sound (s.releasePage pg) :=
  Sound.foldl (by exact h) fun _ _ ht => by split; exacts [ht.setCopy.later, ht]

theorem Sound.pageIn (h : Sound s) : Yields Sound (s.pageIn pg n) :=
  h.perform.bind fun _ ht => ht.carryPoison.fillFrame.perform.bind fun _ hu => yields_pure.mpr hu.releasePage

theorem Sound.execPageInComplete (h : Sound s) : NextSound (execPageInComplete n s) := by
  unfold Machine.execPageInComplete
  split
  · exact h.next
  · split
    · exact h.retry.next
    · split; exacts [h.retry.next, (h.pageIn _ ‹_›).next]

theorem Sound.copyPay (h : Sound s) : Sound (s.copyPay cp) := by
  unfold State.copyPay; extract_lets due s1; split; exacts [h.setCopy, h.setCopy.contribute]

theorem Sound.copyLanded (h : Sound s) : Sound (s.copyLanded cp n m v) := by
  unfold State.copyLanded; extract_lets r s1; split; exacts [h.copyPay.later, h.copyPay.copyDone]

theorem Sound.copyFault (h : Sound s) : Sound (s.copyFault cp tr) := by unfold State.copyFault; split; exacts [h.holdCopy, h.abortCopy]

/-- Both states that the units of a copy's packet may leave. -/
theorem Sound.copyUnits (h : Sound s) {o : Option State} (he : s.copyUnits cp ep u = (o, t)) : Sound t ∧ ∀ t' ∈ o, Sound t' := by
  unfold State.copyUnits at he
  split at he
  · cases he; exact ⟨h, fun _ hm => by cases hm; exact h⟩
  · split at he
    · cases he; exact ⟨h.draw ‹_›, fun _ hm => by cases hm; exact h.draw ‹_›⟩
    · cases he; exact ⟨h.setCopy.queueFor, fun _ hm => nomatch hm⟩

theorem Sound.copyStore (h : Sound s) {bs : List Byte} {ns : List Nat} : Sound (s.copyStore cp n m bs ns) := by
  unfold State.copyStore
  extract_lets w j
  split
  · exact h.landReg.copyLanded
  · exact h.copyLanded
  · exact h.copyLanded
  · split
    · exact h.copyFault
    · split
      · split; exacts [h.meetTier, h.abortCopy]
      · split
        · exact h.retry
        · exact Sound.copyLanded ((h.perform _ ‹_›).foldl fun _ _ ht => ht.putPoison)

theorem Sound.execCopyPieceLand (h : Sound s) : NextSound (execCopyPieceLand n m p q s) := by
  unfold Machine.execCopyPieceLand
  split
  · exact h.next
  · extract_lets busy
    split
    · exact h.next
    · split
      · split
        · exact h.setCopy.contribute.copyDone.next
        · exact h.copyDone.next
      · extract_lets r w1 w2 len
        split
        · split
          next heq => exact (h.copyUnits heq).1.next
          next heq => exact Sound.next (Sound.send (Sound.setCopy ((h.copyUnits heq).2 _ rfl)))
        · split
          · exact h.copyFault.next
          · split
            · split; exacts [h.meetTier.next, h.abortCopy.next]
            · extract_lets bs bad
              split
              · split
                next heq => exact (h.copyUnits heq).1.next
                next heq => exact Sound.next (Sound.send (Sound.setCopy ((h.copyUnits heq).2 _ rfl)))
              · exact h.copyStore.next

theorem Sound.execCopyRewalk (h : Sound s) : NextSound (execCopyRewalk n s) := by
  unfold Machine.execCopyRewalk
  split
  · exact h.next
  · split; exacts [h.setCopy.execCopyPieceLand, h.next]

theorem Sound.issueCopy (h : Sound s) {rows : Params → Except Stop (Option (List (Word × Word)))} :
    Yields Sound (s.issueCopy n d a ep rows) := by
  refine yields_bind_any fun _ => ?_
  extract_lets pb bad
  refine h.loadNum.lift.bind fun r hr => ?_
  split
  next u x =>
  replace hr : Sound u := hr
  extract_lets w p0 p cores
  split; · exact yields_error
  refine yields_bind_any fun rs => ?_
  extract_lets c1 c inWindow go
  have hg : ∀ t, Sound t → Yields Sound (go t) := fun t ht => by
    unfold go
    extract_lets t1 t2
    have h1 : Sound t1 := ht.onCore
    have h2 : Sound t2 := h1
    exact yields_ok.mpr h2.result.later
  split; · exact yields_error
  split; · exact yields_error
  split; · exact yields_error
  refine hr.released ?_
  split; · exact hg _ hr
  split; · exact hr.drawn hg
  split; exacts [hr.drawn hg, hg _ hr]

theorem Sound.execCp (h : Sound s) : NextSound (execCp d a s) := h.checked <| h.closing fun _ hu => hu.issueCopy

/-- A gather or a scatter waits for copies that land in its register of rows (R250). -/
theorem yields_afterLanding {o : BitVec 6} {r : Except Stop State} (hr : Yields Sound r) : Yields Sound (s.afterLanding o r) := by
  unfold State.afterLanding; split; exacts [yields_error, hr]

theorem Sound.execCpG (h : Sound s) {o : BitVec 6} {j : BitVec 3} : NextSound (execCpG d a o c z j s) :=
  h.checked <| by split; exacts [h.illegal, h.closing fun _ hu => yields_afterLanding hu.issueCopy]

theorem Sound.execCpS (h : Sound s) {o : BitVec 6} {j : BitVec 3} : NextSound (execCpS d a o c z j s) :=
  h.checked <| by split; exacts [h.illegal, h.closing fun _ hu => yields_afterLanding hu.issueCopy]

theorem Sound.execRget (h : Sound s) : NextSound (execRget d a e s) :=
  h.checked <| h.closing fun _ hu => yields_bind_any fun _ => hu.issueCopy

theorem Sound.execRput (h : Sound s) : NextSound (execRput d a e s) :=
  h.checked <| h.closing fun _ hu => yields_bind_any fun _ => hu.issueCopy

theorem Sound.cutBack (h : Sound s) : Sound (s.cutBack cid gid coid) :=
  h.foldl fun _ _ ht => by extract_lets; split; exacts [ht, ht.copyPay.dropCopy.onCoro]

theorem Sound.reissue (h : Sound s) : Sound (s.reissue cid gid coid) := by
  unfold State.reissue
  split
  · exact h
  · refine Sound.foldl h.onCoro fun t r ht => ?_
    extract_lets c
    split
    · exact ht.abortCopy
    · split; exacts [ht.abortCopy, ht]

end Sys2Proof.Safety
end

section
namespace Sys2Proof.Safety

open Sys2Proof Sys2Proof.Machine Sys2Proof.Laws

variable {s t : State} {i : Instr} {l : Loc} {ls : List Loc} {ws : List (Loc × Byte)} {x y : Word} {a b d e k : Reg} {g : Gang} {ctx : Ctx}
  {lp : LaunchPacket} {tr : Trap} {ev : FwEvent} {ns ms : List Nat} {cid gid coid ep part qsb u n m p q v : Nat} {c z : Bool}

/-! ### Launches -/

theorem Yields.foldlM {ε α β : Type} {P : α → Prop} {f : α → β → Except ε α} {bs : List β} {a : α} (ha : P a)
    (hf : ∀ a b, P a → Yields P (f a b)) : Yields P (bs.foldlM f a) := by
  induction bs generalizing a with
  | nil => exact yields_pure.mpr ha
  | cons b bs ih => exact (hf a b ha).bind fun _ h => ih h

/-- A gang takes its cores with the scratchpad it asked for cleared (R318). -/
theorem Sound.clearSpads (h : Sound s) {f : Core → Core} (hf : ∀ k, (f k).spad = k.spad.clearBelow n) :
    Sound (ns.foldl (fun t c => t.onCore c f) s) :=
  h.foldl fun t c ht => ht.setCore (by rw [hf]; exact clearBelow_wf ht.core n)

theorem Sound.startGang (h : Sound s) : Yields Sound (s.startGang q qsb part lp ns ms ctx) := by
  unfold State.startGang
  extract_lets g s1 s2
  have h1 : Sound s1 := h
  have h2 : Sound s2 := h1.clearSpads fun _ => rfl
  refine Yields.foldlM h2 fun t c ht => ?_
  split
  · split
    next hc => exact yields_ok.mpr (ht.create hc)
    next => exact yields_error
  · exact yields_ok.mpr ht

theorem Sound.fwPut (h : Sound s) : Sound (s.fwPut q n m v) := by unfold State.fwPut; split; exacts [h.putOwn, h]

theorem Sound.onSlot (h : Sound s) {f : Slot → Slot} : Sound (s.onSlot q qsb f) := h.onQuad

theorem Sound.bitmap (h : Sound s) : Sound (s.bitmap q n c z) := by
  unfold State.bitmap
  split
  · exact h
  · extract_lets; split; exacts [h, h.fwPut]

theorem Sound.writeBack (h : Sound s) : Sound (s.writeBack q qsb n) := by
  unfold State.writeBack
  extract_lets keep w
  split
  · split; exacts [h.fwPut, h.fwPut.fwPut]
  · exact h.fwPut.fwPut.fwPut.fwPut.fwPut.fwPut.fwPut.onQuad

theorem Sound.takeSlot (h : Sound s) (he : s.takeSlot q qsb = some t) : Sound t := by
  unfold State.takeSlot at he
  split at he
  · cases he; exact h
  · split at he
    · cases he
    · cases he; exact h.fwPut.onQuad

theorem Sound.stopQueue (h : Sound s) : Sound (s.stopQueue q qsb n v ev) := by
  unfold State.stopQueue
  extract_lets s1 s2 s3 s4
  have h1 : Sound s1 := by unfold s1; split; exacts [h.takeSlot ‹_›, h]
  exact h1.onSlot.writeBack.fwPut.bitmap.postEvent

theorem Sound.badLink (h : Sound s) : Sound (s.badLink q n m v) := by
  unfold State.badLink; extract_lets; split; exacts [h, h.onQuad.postEvent]

theorem Sound.listFrom (h : Sound s) : Sound (s.listFrom q n m v).2.1 := by
  induction n generalizing s m v with
  | zero => exact h
  | succ n ih =>
    unfold State.listFrom
    split
    · exact h
    · split
      · extract_lets t; split; exacts [h, h.badLink]
      · extract_lets ok t r
        have ht : Sound t := by unfold t; split; exacts [h, h.badLink]
        split; exacts [h, ih ht]

theorem Sound.runList (h : Sound s) : Sound (s.runList q p).2.1 := h.listFrom

theorem Sound.consume (h : Sound s) : Sound (s.consume q qsb) := h.onSlot

/-- What a queue's packet leaves. -/
def TakenSound (r : Taken) : Prop :=
  match r with
  | .started t | .blocked t => Sound t

theorem Sound.startLaunch (h : Sound s) : TakenSound (s.startLaunch q qsb part n lp ns) := by
  unfold State.startLaunch
  extract_lets root run x
  clear_value x
  split; · exact h
  split
  · exact h.stopQueue
  · split; · exact h.stopQueue
    split
    · exact h
    · split
      · exact h
      next hs =>
        have hs := h.takeSlot hs
        extract_lets s1 ctx
        have h1 : Sound s1 := by unfold s1; split; exacts [hs.onSlot, hs]
        split
        next hg => exact h1.consume.startGang _ hg
        next => exact Sound.noRoom (by exact h)

theorem Sound.askWait (h : Sound s) : Sound (s.askWait q part x) := h.sendAs

theorem Sound.waitFault (h : Sound s) : Sound (s.waitFault q qsb n x tr) := by
  unfold State.waitFault; split; exacts [h.stopQueue, h.onSlot.stopQueue]

theorem Sound.startWait (h : Sound s) : TakenSound (s.startWait q qsb part n x) := by
  unfold State.startWait
  split; · exact h.waitFault
  split
  · exact h
  next hs =>
    have hs := h.takeSlot hs
    extract_lets w
    split; · exact hs.onSlot.askWait
    split
    · split; exacts [hs.consume, hs.onSlot.addWaiter]
    · exact hs.waitFault

theorem Sound.takePacket (h : Sound s) {r : Taken} (he : s.takePacket q qsb ns = r) : TakenSound r := by
  subst r
  unfold State.takePacket
  split; · exact h
  extract_lets rd wr rsize n a
  split; · exact h
  split; · exact h.stopQueue
  split
  · exact h.stopQueue
  · extract_lets w
    split; · exact h.stopQueue
    split
    · split
      · exact h
      next hs => exact (h.takeSlot hs).consume
    · exact h.startWait
    · exact h.startLaunch

theorem Sound.showQueue (h : Sound s) : Sound (s.showQueue q qsb) := by
  unfold State.showQueue; extract_lets j t; split; exacts [h.bitmap.bitmap, h.bitmap]

theorem Sound.tend (h : Sound s) : Sound (s.tend q qsb) := by
  unfold State.tend
  extract_lets w t
  refine Sound.showQueue ?_
  unfold t
  split
  · exact h
  · extract_lets st
    split; · exact h.writeBack
    split; exacts [h.writeBack, h]

/-- A fold over a record that holds a state. -/
theorem foldl_keeps {α β : Type} {P : α → Prop} {f : α → β → α} {bs : List β} {a : α} (ha : P a) (hf : ∀ a b, P a → P (f a b)) :
    P (bs.foldl f a) := by
  induction bs generalizing a with
  | nil => exact ha
  | cons b bs ih => exact ih (hf a b ha)

theorem Sound.turnAt (h : Sound s) : Sound (s.turnAt q p ns c).state := by
  unfold State.turnAt
  extract_lets r s1 k order
  have hr : Sound r.2.1 := h.runList
  have h1 : Sound s1 := hr.foldl fun _ _ ht => ht.tend
  split; · exact hr
  split; · exact h1
  refine foldl_keeps (P := fun r : TurnAt => Sound r.state) h1 fun r a hr => ?_
  split; · exact hr
  split
  next ht =>
    have ht := Sound.takePacket hr ht
    split; exacts [hr, ht]
  next ht => exact Sound.onQuad (by exact Sound.takePacket hr ht)

theorem Sound.execWalkerTurn (h : Sound s) : NextSound (execWalkerTurn q ns s) := by
  unfold Machine.execWalkerTurn
  split
  · exact Sound.next (Sound.onQuad (h.foldl fun _ _ ht => ht.showQueue))
  · refine Sound.next (Sound.onQuad (foldl_keeps (P := fun r : TurnAt => Sound r.state) h fun r p hr => ?_))
    split; exacts [hr, Sound.turnAt hr]

theorem Sound.answerWaits (h : Sound s) : Sound (s.answerWaits q ep n c v) :=
  h.foldl fun _ _ ht => by
    split; · exact ht
    split; · exact ht.stopQueue
    split; exacts [ht.consume, ht]

theorem Sound.refusedWaits (h : Sound s) : Sound (s.refusedWaits q ep n) := h.foldl fun _ _ ht => by split; exacts [ht, ht.waitFault]

theorem Sound.execWaitSignalled (h : Sound s) : NextSound (execWaitSignalled q n s) :=
  Sound.next <| h.sourced <| h.foldl fun _ _ ht => by
    split; · exact ht
    split; · exact ht
    extract_lets
    split
    · exact ht.waitFault
    · split; · exact ht.stopQueue
      split; exacts [ht.consume, ht.addWaiter]

theorem Sound.execWatchdog (h : Sound s) : NextSound (execWatchdog q n s) := by
  unfold Machine.execWatchdog
  split
  · exact h.next
  · extract_lets limit old s1
    split
    · exact h.next
    · split; exacts [h.next, Sound.next (Sound.sourced (by exact h) h.onSlot.stopQueue)]

theorem Sound.launchDone (h : Sound s) : Sound (s.launchDone g) := by
  unfold State.launchDone
  extract_lets s0 s1
  have h1 : Sound s1 := by unfold s1; split; exacts [h.onSlot, h.fwPut.fwPut]
  split; exacts [h1, h1.contribute]

theorem Sound.execTimer (h : Sound s) : NextSound (execTimer q s) := by
  unfold Machine.execTimer; extract_lets; split; exacts [(h.sourced h.onQuad.postEvent).next, h.next]

theorem Sound.writeRun (h : Sound s) {bad : Nat → Bool} : Sound (s.writeRun n m p v bad) :=
  h.foldl fun _ _ ht => by
    extract_lets
    split; · exact ht
    split
    · split; exacts [ht.putWords, ht]
    · exact ht

theorem Sound.jobBack (h : Sound s) : Sound (s.jobBack g ctx) := by
  unfold State.jobBack
  split
  · exact h
  · extract_lets root rd vn live ms vb m marks put s1 s2 regs tiles tb s3 s4
    have hput : ∀ t e, Sound t → Sound (put t e) := fun _ _ ht => ht.writeRun
    have h2 : Sound s2 := Sound.foldl (h.foldl hput) hput
    have h4 : Sound s4 := by
      unfold s4
      split
      · exact h2
      · exact Sound.foldl (h2.foldl hput) hput
    split
    · exact hput _ _ (h4.foldl hput)
    · exact h4

theorem Sound.jobEnd (h : Sound s) {o : Option Gang} : Sound (s.jobEnd o n ctx) := by
  unfold State.jobEnd
  split
  · split; exacts [h.jobBack, h]
  · exact h

end Sys2Proof.Safety
end

section
namespace Sys2Proof.Safety

open Sys2Proof Sys2Proof.Machine Sys2Proof.Laws

variable {s t : State} {i : Instr} {x y : Word} {a b d e k : Reg} {g : Gang} {cid gid coid q n m v : Nat} {c z : Bool}

/-! ### CSRs -/

theorem Sound.popEvent (h : Sound s) : Sound (s.popEvent q) := h.onQuad

theorem Sound.writeVcfg (h : Sound s) : Yields Sound (s.writeVcfg x) := by
  unfold State.writeVcfg
  split
  · exact yields_error
  · extract_lets; split; exacts [yields_ok.mpr h, yields_ok.mpr h.setCtx]

theorem Sound.writeFmask (h : Sound s) : Sound s.writeFmask := h

@[simp] theorem writeSlpart_spad (c : Core) (w : Word) : (c.writeSlpart w).spad = c.spad := by
  unfold Core.writeSlpart
  split
  · split <;> rfl
  · rfl

@[simp] theorem writePlain_spad (c : Core) (n : Nat) (w : Word) : (c.writePlain n w).spad = c.spad := by
  unfold Core.writePlain; split <;> rfl

theorem Sound.writeInboxcfg (h : Sound s) : Sound (s.writeInboxcfg cid x) := by
  unfold State.writeInboxcfg; extract_lets; split; exacts [(Sound.setCore h (by exact h.core)).releaseHolds.kickInbox, h]

theorem Sound.writeOvfcfg (h : Sound s) : Sound (s.writeOvfcfg cid x) := by
  unfold State.writeOvfcfg; extract_lets; split; exacts [(Sound.setCore h (by exact h.core)).releaseHolds.kickInbox, h]

theorem Sound.writeOvfbase (h : Sound s) : Sound (s.writeOvfbase cid x) := h.onCore.releaseHolds.kickInbox

theorem Sound.dropHead (h : Sound s) : Sound (s.dropHead cid x) := by
  unfold State.dropHead
  split
  · exact h
  · extract_lets c
    split; exacts [h, (Sound.setCore h (by exact h.core)).kickInbox]

theorem Sound.writeCtxop (h : Sound s) : Sound (s.writeCtxop cid x) := by
  unfold State.writeCtxop; extract_lets; split; exacts [h, h.onCore.later]

theorem Sound.writeSstatus (h : Sound s) : Sound (s.writeSstatus x) := by
  unfold State.writeSstatus; extract_lets rw s1; split; exacts [h.onFocus.onCore fun c => by split <;> rfl, h]

theorem Sound.writeQbmbase (h : Sound s) : Sound (s.writeQbmbase q x) := by
  unfold State.writeQbmbase
  extract_lets a s1 s2
  have h2 : Sound s2 := Sound.foldl h.onQuad fun _ _ ht => ht.fwPut
  exact h2.foldl fun _ _ ht => ht.showQueue.bitmap

theorem Sound.writeWctl (h : Sound s) : Sound (s.writeWctl q x) := by unfold State.writeWctl; split <;> exact h.onQuad

theorem Sound.writeFtcmp (h : Sound s) : Sound (s.writeFtcmp q x) := h.onQuad

theorem Sound.writeRlhead (h : Sound s) : Sound (s.writeRlhead q n x) := h.onQuad

theorem Sound.writeFwCsr (h : Sound s) : Sound (s.writeFwCsr q n x) := by
  unfold State.writeFwCsr
  split
  · exact h.writeQbmbase
  · exact h.writeWctl
  · exact h.onQuad
  · exact h.writeFtcmp
  · split; exacts [h.writeRlhead, h]

theorem Sound.writePlain (h : Sound s) : Sound (s.onCore cid fun c => c.writePlain n x) := h.onCore fun _ => writePlain_spad ..

theorem Sound.writeSuper (h : Sound s) : Yields Sound (s.writeSuper n x) := by
  unfold State.writeSuper
  split
  · exact yields_ok.mpr h.writeSstatus
  · exact yields_ok.mpr (h.onCore fun _ => writeSlpart_spad ..)
  · exact yields_ok.mpr h.writePlain.kickInbox
  · exact yields_ok.mpr h.writePlain.respill.takeBack
  · exact yields_ok.mpr h.writePlain.respill.takeBack
  · exact yields_ok.mpr h.writeInboxcfg
  · exact yields_ok.mpr h.writeOvfbase
  · exact yields_ok.mpr h.writeOvfcfg
  · exact yields_ok.mpr h.dropHead
  · split; exacts [yields_error, yields_ok.mpr h.writeCtxop]
  · split; exacts [yields_ok.mpr h.onFocus, yields_ok.mpr h.writePlain]
  · exact yields_ok.mpr h.onFocus

theorem Sound.writeUser (h : Sound s) : Yields Sound (s.writeUser n x) := by
  unfold State.writeUser
  extract_lets
  split
  · exact h.writeVcfg
  all_goals exact yields_ok.mpr h

theorem Sound.csrWrite (h : Sound s) : Yields Sound (s.csrWrite n x) := by
  unfold State.csrWrite
  split; · exact h.writeUser
  split; · exact h.writeSuper
  split; exacts [yields_ok.mpr h.writeFwCsr, yields_ok.mpr h]

theorem Sound.csrOp (h : Sound s) {f : Word → Word} : NextSound (s.csrOp i a n f) := by
  unfold State.csrOp
  split
  · split; exacts [h.illegal, h.sword yields_error]
  · exact h.closing fun _ hu => yields_bind_any fun _ => hu.csrWrite.bind fun _ ht => yields_pure.mpr ht.stepPc.retire

theorem Sound.execCsrr (h : Sound s) {r : BitVec 12} : NextSound (execCsrr d r s) := by
  unfold Machine.execCsrr
  extract_lets n v t
  split
  · split; exacts [h.illegal, h.sword yields_error]
  · split
    · exact h.next
    · refine Sound.next (Sound.resultMarked ?_)
      unfold t
      split
      · split; exacts [h.popEvent, h]
      · exact h

theorem Sound.change (h : Sound s) {r : Except Stop State} (hr : Yields Sound r) : NextSound (s.change r) := by
  unfold State.change; split; exacts [Sound.next (yields_ok.mp hr), h.next]

theorem Sound.execFevqRead (h : Sound s) : NextSound (execFevqRead q d s) := h.popEvent.onHart.next

/-! ### Messages, coroutines and gangs -/

theorem Sound.execMsend (h : Sound s) {r : BitVec 2} {j : BitVec 8} : NextSound (execMsend a b r j s) :=
  h.checked <| by
    split
    · exact h.illegal
    · refine h.closing fun u hu => yields_bind_any fun _ => ?_
      extract_lets units
      refine hu.loadNum.lift.bind fun r hr => ?_
      refine Sound.behindStores hr (Sound.drawn hr fun t ht => ?_)
      refine yields_ok.mpr (Sound.retire (Sound.stepPc ?_))
      split; exacts [ht, Sound.send (by exact ht)]

theorem Sound.execSpawn (h : Sound s) {r : BitVec 5} : NextSound (execSpawn d a r s) :=
  h.checked <| h.acting <| h.closing fun u hu => yields_bind_any fun _ => by
    extract_lets pc
    split; · exact yields_error
    refine hu.released ?_
    split; · exact yields_error
    split; · exact yields_error
    extract_lets base
    split
    next hc => exact yields_ok.mpr (Sound.result (hu.create hc))
    next hc => exact yields_ok.mpr (hu.create hc)

theorem Sound.execYield (h : Sound s) : NextSound (execYield s) :=
  h.checked <| h.acting <| h.closing fun u hu => by
    extract_lets other t
    have ht : Sound t := hu.stepPc.retire
    exact yields_ok.mpr (by split; exacts [ht.saveFull, ht])

theorem Sound.execCexit (h : Sound s) : NextSound (execCexit s) :=
  h.checked <| h.acting <| h.closing fun u hu => hu.released <| by
    extract_lets u1
    have h1 : Sound u1 := hu.retire
    split
    · extract_lets t
      have ht : Sound t := h1.jobEnd.retireCoro.onFocus
      exact yields_ok.mpr (by split <;> exact ht)
    · exact yields_ok.mpr h1

theorem Sound.execGalloc (h : Sound s) {r : BitVec 5} : NextSound (execGalloc d a r s) :=
  h.checked <| h.acting <| h.closing fun u hu => yields_bind_any fun _ => by
    split
    · exact yields_ok.mpr hu.result
    · extract_lets n
      split; exacts [yields_ok.mpr hu.result, yields_ok.mpr hu.onGang.result]

theorem Sound.execGfree (h : Sound s) : NextSound (execGfree a s) :=
  h.checked <| h.acting <| h.closing fun u hu => yields_bind_any fun _ => by
    split
    · exact yields_ok.mpr hu.stepPc.retire
    · refine hu.released ?_
      split
      · exact yields_error
      · split; exacts [yields_ok.mpr hu.onGang.stepPc.retire, yields_error]

theorem Sound.dropHeld (h : Sound s) : Sound (s.dropHeld g) := h

theorem Sound.settleAll (h : Sound s) : Sound s.settleAll := h.foldl fun _ _ ht => ht.feSettle

theorem Sound.execGangExit (h : Sound s) : NextSound (execGangExit gid s) := by
  unfold Machine.execGangExit
  split
  · exact h.next
  · extract_lets old s1 s2 s3 s4
    have h1 : Sound s1 := h.dropPushes.dropHeld
    have h2 : Sound s2 := h1.clearSpads fun _ => rfl
    have h4 : Sound s4 := h2.settleAll
    split; exacts [h1.next, Sound.next (Sound.sourced (by exact h) h4.launchDone)]

end Sys2Proof.Safety
end

section
namespace Sys2Proof.Safety

open Sys2Proof Sys2Proof.Machine Sys2Proof.Laws

variable {s t : State} {i : Instr} {x y : Word} {a b d e k : Reg} {g : Gang} {gr : Grid} {ps : Push} {who : Contributor}
  {cid gid coid q n m p u v : Nat} {c z : Bool}

/-! ### Grids and halos -/

theorem Sound.setGrid (h : Sound s) : Sound (s.setGrid gr) := h

theorem Sound.advanceWord (h : Sound s) : Sound (s.advanceWord gr n c m who) := h.offer

theorem Sound.advanceGhost (h : Sound s) : Sound (s.advanceGhost gr n who) := by
  unfold State.advanceGhost
  split
  · exact h
  · extract_lets j s1
    split; exacts [h.setGrid, h.setGrid.advanceWord]

theorem Sound.partLanded (h : Sound s) : Sound (s.partLanded gr n m p q who) := by
  unfold State.partLanded; split; exacts [h, h.setGrid.advanceGhost]

theorem Sound.storeEls (h : Sound s) {es : List (Nat × List Byte × Bool)} : Yields Sound (s.storeEls gr g n m es) :=
  yields_bind_any fun _ => h.perform.bind fun _ ht => yields_pure.mpr (ht.foldl fun _ _ hu => hu.foldl fun _ _ hv => hv.putPoison)

theorem Sound.dropPush (h : Sound s) : Sound (s.dropPush ps) := h

theorem Sound.setPush (h : Sound s) : Sound (s.setPush ps) := h

/-- What a push that moved leaves. -/
def LandedSound (r : Landed) : Prop :=
  match r with
  | .done t | .held t => Sound t
  | .busy => True

theorem Sound.movePush (h : Sound s) {r : Landed} (he : s.movePush ps = r) : LandedSound r := by
  subst r
  unfold State.movePush
  split
  · exact h
  · split; · exact h
    split
    · split
      · exact h
      · extract_lets n els u
        split
        · exact h.setPush.queueFor
        · exact (h.draw ‹_›).setPush.send
    · split
      · exact h
      · split
        · have ht := h.storeEls _ ‹_›
          split; exacts [ht.dropPush.partLanded, ht.dropPush]
        · trivial
        · extract_lets s1
          have h1 : Sound s1 := h.setPush
          change Sound _
          split; exacts [h, h1.postAsync]

theorem Sound.firstPush (h : Sound s) {l : List Push} : Sound (s.firstPush l).1 := by
  induction l generalizing s with
  | nil => exact h
  | cons p l ih =>
    unfold State.firstPush
    split
    next hm => exact h.movePush hm
    next hm => exact ih (h.movePush hm)
    next => exact ih h

theorem Sound.execSkinkWriteLand (h : Sound s) : NextSound (execSkinkWriteLand n s) := by
  unfold Machine.execSkinkWriteLand
  extract_lets r t ends
  have hr : Sound r.1 := h.firstPush
  have he : Sound ends := hr.foldl fun _ _ ht => ht.later
  split
  · exact Sound.next (by split <;> exact he)
  · split; exacts [hr.retry.next, hr.next]

theorem Sound.initWords (h : Sound s) : Yields Sound (s.initWords gr n) := by
  induction n generalizing s with
  | zero => exact yields_ok.mpr h
  | succ n ih =>
    refine (ih h).bind fun u hu => ?_
    extract_lets one
    have ho : ∀ t a, Sound t → Yields Sound (one t a) := fun t a ht =>
      yields_bind_any fun _ => yields_bind_any fun _ => ht.perform.bind fun _ hv => yields_pure.mpr (by split; exacts [hv.wake, hv])
    exact (ho _ _ hu).bind fun _ ht => ho _ _ ht

theorem Sound.declare (h : Sound s) : Yields Sound (s.declare d gr n) :=
  h.initWords.bind fun _ ht => yields_pure.mpr (Sound.later (Sound.result (by exact ht)))

theorem Sound.execGdecl (h : Sound s) : NextSound (execGdecl d a s) :=
  h.checked <| h.acting <| h.closing fun u hu => yields_bind_any fun _ => by
    extract_lets va bad
    refine hu.loadNum.lift.bind fun r hr => ?_
    split
    next u x =>
    replace hr : Sound u := hr
    split
    · exact yields_error
    · extract_lets mine gr parent patchBad toks before answers u1
      split; · exact yields_error
      split; · exact yields_error
      split; · exact yields_error
      split
      · exact yields_ok.mpr hr.ask
      · have h1 : Sound u1 := by unfold u1; split; exacts [hr, hr.forget]
        split; · exact yields_error
        split; exacts [yields_error, h1.declare]

theorem Sound.awaitGrid (h : Sound s) : Sound (s.awaitGrid x) := by
  unfold State.awaitGrid; split; exacts [h.register.saveFull, h]

theorem Sound.addPushes (h : Sound s) {l : List Push} : Sound (s.addPushes l) := h

theorem Sound.stepOn (h : Sound s) : Yields Sound (s.stepOn gr g n m) := by
  unfold State.stepOn
  extract_lets b ds q early test s1
  split
  · split; exacts [yields_ok.mpr h.ask, yields_ok.mpr h]
  · split
    · split; exacts [yields_ok.mpr h.forget.awaitGrid, yields_ok.mpr h.forget]
    · split
      · split; exacts [yields_ok.mpr h.forget, yields_ok.mpr h.forget.setGrid.postAsync]
      · exact yields_ok.mpr h.forget.setGrid.addPushes.stepPc.retire.later

theorem Sound.publish (h : Sound s) : Sound (s.publish gr n m) := by
  unfold State.publish
  extract_lets gr1 s1
  have h1 : Sound s1 := h.setGrid.advanceWord
  split; exacts [h1.advanceGhost, h1]

theorem Sound.execGstep (h : Sound s) : NextSound (execGstep a b s) :=
  h.checked <| h.acting <| h.closing fun u hu => yields_bind_any fun _ => yields_bind_any fun r => by
    split
    extract_lets n
    split; · exact yields_error
    split; · exact yields_error
    extract_lets next
    split
    · refine hu.released ?_
      extract_lets u1
      have h1 : Sound u1 := hu.publish
      split; exacts [h1.stepOn, yields_ok.mpr h1]
    · split
      · split; exacts [hu.stepOn, yields_ok.mpr hu.stepPc.retire]
      · exact yields_error

theorem Sound.execGwait (h : Sound s) : NextSound (execGwait a b s) :=
  h.checked <| h.acting <| h.closing fun u hu => yields_bind_any fun _ => yields_bind_any fun r => by
    split
    extract_lets n
    split
    · exact yields_error
    · split; exacts [yields_ok.mpr hu.stepPc.retire, yields_ok.mpr hu.awaitGrid]

theorem Sound.execGdrop (h : Sound s) : NextSound (execGdrop a s) :=
  h.checked <| h.acting <| h.closing fun u hu => yields_bind_any fun _ => yields_bind_any fun r => by
    split
    extract_lets mine
    split; · exact yields_error
    split; · exact yields_error
    exact yields_pure.mpr (Sound.retire (Sound.stepPc (by exact hu)))

end Sys2Proof.Safety
end

section
namespace Sys2Proof.Safety

open Sys2Proof Sys2Proof.Machine Sys2Proof.Laws

variable {s t : State} {i : Instr} {x y : Word} {a b d e k : Reg} {w : EWord} {bl : Block} {addr : Nat → Nat} {els : List Nat}
  {cid gid coid ep q n m p u v : Nat} {c z : Bool}

/-! ### Strips, blocks and traps -/

theorem Sound.execSetvl (h : Sound s) {r : BitVec 3} : NextSound (execSetvl d a r s) :=
  h.checked <| h.closing fun _ hu => yields_ok.mpr (Sound.setCtx hu.resultMarked)

theorem Sound.execSettl (h : Sound s) : NextSound (execSettl d a s) := h.setCtx.resultMarked.next

theorem Sound.execStripend (h : Sound s) : NextSound (execStripend s) := h.closing fun _ hu => yields_ok.mpr hu.stepPc.retire

theorem Sound.lazySave (h : Sound s) : Sound s.lazySave := by unfold State.lazySave; split <;> exact h

theorem Sound.startBlock (h : Sound s) : Sound (s.startBlock x) := h

theorem Sound.fetchBlock (h : Sound s) : NextSound (s.fetchBlock x) := by
  refine h.clean ?_
  split; · exact h.sword yields_error
  split; · exact h.next
  split; · exact h.startBlock.stepPc.retire.next
  extract_lets t
  have ht : Sound t := h.lazySave.respill
  split; exacts [Sound.next (by exact ht), ht.startBlock.stepPc.retire.next]

theorem Sound.execVfetchReg (h : Sound s) {o : BitVec 15} : NextSound (execVfetchReg a o s) := h.unpoisoned h.fetchBlock

theorem Sound.call (h : Sound s) {o : Cause} : NextSound (s.call o a) :=
  h.closing fun _ hu => yields_bind_any fun _ => yields_pure.mpr hu.retire.trapEntry

theorem Sound.execEret (h : Sound s) : NextSound (execEret s) := by
  unfold Machine.execEret; split; exacts [h.sword yields_error, h.closing fun _ hu => yields_ok.mpr hu.trapReturn]

theorem Sound.execWfm (h : Sound s) : NextSound (execWfm s) := by
  unfold Machine.execWfm; split; exacts [h.sword yields_error, h.closing fun _ hu => yields_ok.mpr hu.onFocus]

theorem Sound.execWfmResume (h : Sound s) {a : Agent} : NextSound (execWfmResume a s) := by
  unfold Machine.execWfmResume
  extract_lets u
  have hu : Sound u := h.focusOn
  split; exacts [hu.onFocus.stepPc.retire.next, hu.next]

theorem Sound.execUnallocatedOpcode (h : Sound s) {r : BadWord} : NextSound (execUnallocatedOpcode r s) := by
  unfold Machine.execUnallocatedOpcode
  split
  · exact h.illegal
  · split
    · split; exacts [h.next, h.ewordTrap]
    · exact h.illegal

theorem Sound.execFetchFault (h : Sound s) {r : Trap} : NextSound (execFetchFault r s) := by
  unfold Machine.execFetchFault
  split
  · split
    · split; exacts [h.next, h.ewordTrap]
    · exact h.next
  · exact h.swordTrap.next

/-! ### Vector memory -/

theorem Sound.elemAccess (h : Sound s) : Yields (fun r => Sound r.1) (s.elemAccess n m v c) := by
  unfold State.elemAccess
  split
  · exact yields_error
  · split
    · exact yields_error
    · exact yields_error
    next ht => exact yields_pure.mpr (by dsimp only; split; exacts [h, h.tierUse _ ht])

theorem Sound.gather (h : Sound s) : Sound (s.gather w c addr els).state :=
  foldl_keeps (P := fun g : Gathered => Sound g.state) h fun g i hg => by
    split
    · exact hg
    · split
      next ht => exact Sound.elemAccess hg _ ht
      next => split <;> exact hg

/-- An E-word that leaves a sound state. -/
abbrev YieldsDone (r : Except Stop Done) : Prop := Yields (fun d => Sound d.state) r

theorem endLoad_done {g : Gathered} (h : Sound g.state) : YieldsDone (s.endLoad w g) := by
  unfold State.endLoad
  extract_lets width u
  split
  · exact yields_ok.mpr h
  · split; · exact yields_error
    split; exacts [yields_error, yields_ok.mpr h]

theorem Sound.loadV (h : Sound s) : YieldsDone (s.loadV bl w c addr) := yields_bind_any fun _ => endLoad_done h.gather

theorem Sound.rollbackSave (h : Sound s) {r : WaitFor} : Sound (s.rollbackSave r c) := h.onFocus.saveFull

theorem Sound.loadRemote (h : Sound s) : YieldsDone (s.loadRemote bl w n) := by
  refine yields_bind_any fun _ => ?_
  split
  · exact yields_pure.mpr h
  · extract_lets v ep u as aside who
    refine yields_bind_any fun _ => ?_
    split; · exact yields_pure.mpr h
    split; · exact h.sendOwn.bind fun _ ht => yields_pure.mpr ht
    split; · exact yields_error
    split
    · exact yields_pure.mpr (Sound.onFocus (Sound.send (h.draw ‹_›)))
    · split; exacts [yields_pure.mpr h.queueFor.rollbackSave, yields_pure.mpr h.queueFor.onFocus]

theorem Sound.scatter (h : Sound s) : Sound (s.scatter w addr els).1 :=
  foldl_keeps (P := fun g : State × List Pend × Option (Nat × Trap) => Sound g.1) h fun g i hg => by
    split
    · exact hg
    · split
      · exact hg
      next ht => exact Sound.elemAccess hg _ ht

theorem Sound.addPend (h : Sound s) {ps : List Pend} : Sound (s.addPend ps) := h

theorem endStore_done {r : State × List Pend × Option (Nat × Trap)} (h : Sound r.1) : YieldsDone (s.endStore w r) := by
  unfold State.endStore
  extract_lets ps groups t
  split
  · exact yields_ok.mpr h
  · split; · exact yields_error
    split; exacts [yields_error, yields_ok.mpr h]

theorem Sound.storeV (h : Sound s) : YieldsDone (s.storeV bl w c addr) := yields_bind_any fun _ => endStore_done h.scatter

theorem Sound.storeRemote (h : Sound s) : YieldsDone (s.storeRemote bl w n) := by
  refine yields_bind_any fun _ => ?_
  extract_lets els v ep ps
  split
  · exact yields_pure.mpr h
  · exact yields_bind_any fun _ => yields_pure.mpr h.addPend

theorem Sound.execVlds (h : Sound s) : NextSound (execVlds w s) := h.eword fun b w => by split; exacts [h.loadRemote, h.loadV]

theorem Sound.execVldx (h : Sound s) : NextSound (execVldx w s) := h.eword fun b w => by split; exacts [h.loadRemote, h.loadV]

theorem Sound.execVldff (h : Sound s) : NextSound (execVldff w s) :=
  h.eword fun b w => yields_bind_any fun _ => by
    extract_lets g
    have hg : Sound g.state := h.gather
    split
    · exact endLoad_done hg
    · split; exacts [endLoad_done hg, yields_pure.mpr hg]

theorem Sound.execVldg (h : Sound s) : NextSound (execVldg w s) :=
  h.eword fun b w => by
    split
    · exact yields_ok.mpr h
    · refine yields_bind_any fun _ => yields_bind_any fun r => ?_
      split
      extract_lets els addr ep test
      split
      · exact endLoad_done (by exact h.gather)
      · split
        · exact endLoad_done h.onFocus.gather
        · extract_lets tr
          split; exacts [yields_error, yields_pure.mpr h.onFocus]

theorem Sound.execVpref (h : Sound s) : NextSound (execVpref w s) := h.eword fun _ _ => yields_ok.mpr h

theorem Sound.execVsts (h : Sound s) : NextSound (execVsts w s) := h.eword fun b w => by split; exacts [h.storeRemote, h.storeV]

theorem Sound.execVstx (h : Sound s) : NextSound (execVstx w s) := h.eword fun b w => by split; exacts [h.storeRemote, h.storeV]

theorem Sound.execVstg (h : Sound s) : NextSound (execVstg w s) :=
  h.eword fun b w => by
    split
    · exact yields_ok.mpr h
    · refine yields_bind_any fun _ => yields_bind_any fun r => ?_
      split
      extract_lets els addr
      split
      · exact endStore_done h.scatter
      · exact endStore_done h.scatter

theorem Sound.execVsqCommit (h : Sound s) : NextSound (execVsqCommit w s) :=
  h.eword fun b w => by
    extract_lets c
    split
    · exact yields_pure.mpr h
    · exact yields_bind_any fun _ => yields_pure.mpr h.commitThese

theorem Sound.execVsqDrop (h : Sound s) : NextSound (execVsqDrop w s) :=
  h.eword fun b w => by split; exacts [yields_ok.mpr h, yields_ok.mpr h.onFocus]

/-! ### Waiters and held contributions -/

theorem Sound.testTokens (h : Sound s) : Sound (s.testTokens cid ep n c v).1 :=
  foldl_keeps (P := fun r : State × Bool => Sound r.1) h fun r k hr => by
    extract_lets hits t
    split
    · exact (Sound.onCoro hr).ready
    · split
      · refine Sound.ready ?_
        unfold t
        split; exacts [hr, Sound.onCoro hr]
      · exact hr

theorem Sound.retest (h : Sound s) : Sound (s.retest cid n) := by
  unfold State.retest
  extract_lets root
  split
  · exact h
  · extract_lets r
    split; exacts [h.testTokens.register, h.testTokens]

theorem Sound.execWaiterReread (h : Sound s) : NextSound (execWaiterReread cid n s) :=
  Sound.next (h.retest.foldl fun _ _ ht => ht.register)

theorem Sound.execContribute (h : Sound s) {who : Contributor} : NextSound (execContribute x n who s) := (h.sourced h.contribute).next

theorem Sound.rewalkHeld (h : Sound s) {l r : List HeldContribution} : Sound (s.rewalkHeld l r).1 := by
  induction l generalizing s r with
  | nil => exact h
  | cons k l ih =>
    unfold State.rewalkHeld
    split
    · exact ih h
    · split
      next u hu =>
        extract_lets t
        have ht : Sound t := h.makeContribution u hu
        exact ih ht.copyDone
      · exact ih h
      · split
        · exact ih h
        · extract_lets k2 u
          have hu : Sound u := h
          exact ih hu.reportUnreachable

theorem Sound.execHeldContributionRewalk (h : Sound s) : NextSound (execHeldContributionRewalk n s) :=
  Sound.next (by split; exacts [Sound.retry h.rewalkHeld, h.rewalkHeld])

end Sys2Proof.Safety
end

section
namespace Sys2Proof.Safety

open Sys2Proof Sys2Proof.Machine Sys2Proof.Laws

variable {s t : State} {i : Instr} {x y : Word} {k : Coro} {w : EWord} {ag : Agent} {cid gid coid ep part q n m p u v : Nat} {c z : Bool}

/-! ### Switches and the operations on coroutines -/

theorem Sound.execHartSelect (h : Sound s) : NextSound (execHartSelect cid n s) := by
  unfold Machine.execHartSelect
  extract_lets t
  have ht : Sound t := h.focusOn.respill
  split; · exact h.next
  split; · exact ht.next
  split; exacts [ht.startCoro.next, ht.next]

theorem Sound.refuseRecord (h : Sound s) {r : Cause} : Sound (s.refuseRecord cid k r) := by
  unfold State.refuseRecord; split; exacts [h, h.onCoro.postAsync]

theorem Sound.execContextFetch (h : Sound s) : NextSound (execContextFetch cid gid coid s) := by
  unfold Machine.execContextFetch
  split
  · exact h.next
  · split; · exact h.takeBack.next
    split; · exact h.next
    split
    · exact h.refuseRecord.next
    · extract_lets k1 t u
      have ht : Sound t := h.onCoro
      split; · exact ht.respill.next
      split
      · exact h.next
      · split
        · exact h.next
        · exact Sound.next (by split; exacts [h, ht.spill])

theorem Sound.execQuantumExpire (h : Sound s) : NextSound (execQuantumExpire cid n s) := by
  unfold Machine.execQuantumExpire; extract_lets; split; exacts [h.next, h.onHart.next]

theorem Sound.execQuantumSwitch (h : Sound s) : NextSound (execQuantumSwitch cid n s) := by
  unfold Machine.execQuantumSwitch
  extract_lets t
  have ht : Sound t := h.focusOn
  split; · exact ht.onFocus.next
  split; exacts [ht.saveFull.next, h.next]

theorem Sound.execForcedRollback (h : Sound s) : NextSound (execForcedRollback cid n s) := by
  unfold Machine.execForcedRollback; extract_lets t q; split; exacts [h.focusOn.rollbackSave.next, h.next]

theorem Sound.stallSave (h : Sound s) : Sound (s.stallSave cid x) := h.rollbackSave.retest

theorem Sound.execStallTimeout (h : Sound s) : NextSound (execStallTimeout cid n s) := by
  unfold Machine.execStallTimeout
  extract_lets t
  have ht : Sound t := h.focusOn
  have hv (w : EWord) : NextSound (Machine.execVldg w t) := ht.execVldg
  clear_value t
  split
  · split
    · split
      next hu =>
        have hu := hv _ _ hu
        split; exacts [ht.stallSave.next, hu.next]
      next => exact hv _
    · exact h.next
  · exact h.next

theorem Sound.execMrotWithdraw (h : Sound s) : NextSound (execMrotWithdraw ag s) := by
  unfold Machine.execMrotWithdraw; extract_lets t; split; exacts [h.focusOn.rollbackSave.next, h.next]

theorem Sound.ctxDone (h : Sound s) : Sound (s.ctxDone cid c) := h.onCore

theorem Sound.ctxEnd (h : Sound s) : Sound (s.ctxEnd cid gid coid c) := by unfold State.ctxEnd; split; exacts [h.ctxDone, h]

theorem Sound.flushCoro (h : Sound s) : Sound (s.flushCoro cid gid coid) := h.sendLines.later

theorem Sound.patchCoro (h : Sound s) : Sound (s.patchCoro cid gid coid) := by
  unfold State.patchCoro; split; exacts [h.patchRecord, h]

theorem Sound.setPre (h : Sound s) : Sound (s.setPre cid gid coid) := h.onCoro.cutBack.flushCoro.patchCoro

theorem Sound.execPreempt (h : Sound s) : NextSound (execPreempt cid gid coid s) := by
  unfold Machine.execPreempt
  split
  · exact h.ctxEnd.next
  · split; · exact h.ctxEnd.next
    split; · exact h.setPre.ctxEnd.next
    split; exacts [h.ctxEnd.next, h.onHart.next]

theorem Sound.takePre (h : Sound s) : Sound s.takePre := by
  unfold State.takePre
  split
  · extract_lets run s1 s2
    have h1 : Sound s1 := h.onFocus
    have h2 : Sound s2 := by unfold s2; clear_value run; split <;> exact h1.saveFull
    exact h2.setPre.ctxEnd
  · exact h

theorem Sound.execPreemptTake (h : Sound s) : NextSound (execPreemptTake cid n s) := by
  unfold Machine.execPreemptTake
  extract_lets t
  have ht : Sound t := h.focusOn
  split; · exact h.next
  split; · exact ht.takePre.next
  split; exacts [ht.onFocus.takePre.next, h.next]

theorem Sound.execPreemptRollback (h : Sound s) : NextSound (execPreemptRollback cid n s) := by
  unfold Machine.execPreemptRollback; extract_lets t; split; exacts [h.focusOn.onFocus.takePre.next, h.next]

theorem Sound.enter (h : Sound s) : Sound (s.enter cid gid coid k) := by
  unfold State.enter
  extract_lets now s1 s2 new
  have h2 : Sound s2 := h.reissue.onCoro.patchCoro
  split
  · split <;> exact h2
  · split
    · extract_lets s3
      have h3 : Sound s3 := h2.foldl fun _ _ ht => by split; exacts [ht.retest, ht.register]
      split; exacts [h3.ready, h3]
    · split; exacts [h2.ready, h2]
    · split; exacts [h2.ready, h2]
    · exact h2

theorem Sound.restoreCoro (h : Sound s) : Sound (s.restoreCoro cid gid coid) := by
  unfold State.restoreCoro
  split
  · exact h
  · split; exacts [h.refuseRecord, h.enter]

theorem Sound.execRestore (h : Sound s) : NextSound (execRestore cid gid coid s) := by
  unfold Machine.execRestore
  split
  · exact h.ctxDone.next
  · split; · exact h.ctxDone.next
    split; exacts [h.refuseRecord.ctxDone.next, h.enter.ctxDone.next]

theorem Sound.followCoro (h : Sound s) : Sound (s.followCoro n m gid coid) := h

theorem Sound.moveRaw (h : Sound s) (he : s.moveRaw cid n k = some (t, m)) : Sound t := by
  unfold State.moveRaw at he
  extract_lets b at he
  split at he
  · obtain ⟨dst, _, hd⟩ := Option.map_eq_some_iff.mp he
    cases hd
    exact h.putOwn.foldl fun _ _ ht => by split; exacts [ht.putPoison, ht]
  · cases he

theorem Sound.moveTo (h : Sound s) {r : Except State State} (he : s.moveTo cid n k = r) : BothSound r := by
  subst r
  unfold State.moveTo
  extract_lets gone k1 k2
  have hg : Sound gone := h.onCore
  split; · exact h.onCoro
  split
  · split
    next ht => exact hg.takeIn ht
    next => exact h.noRoom
  · split
    next ht => exact Sound.onCore (hg.moveRaw ht)
    next => exact h.noRoom

theorem Sound.execMove (h : Sound s) : NextSound (execMove cid gid coid s) := by
  unfold Machine.execMove
  extract_lets j
  split
  · exact h.ctxDone.next
  · split; · exact h.ctxDone.next
    split; · exact h.flushCoro.retry.next
    split
    next ht => exact Sound.next (Sound.retry (h.moveTo ht))
    next ht =>
      have ht := h.moveTo ht
      refine Sound.next (Sound.ctxDone ?_)
      split; exacts [ht, Sound.respill (Sound.fetchNext (Sound.followCoro ht))]

theorem Sound.execDiscard (h : Sound s) : NextSound (execDiscard cid gid coid s) := by
  unfold Machine.execDiscard
  split
  · exact h.ctxDone.next
  · split; · exact h.ctxDone.next
    extract_lets s1 mine s2 s3 s4
    have h2 : Sound s2 := h.reissue
    exact h2.dropUnits.jobEnd.retireCoro.ctxDone.next

theorem Sound.execPendingTrapDeliver (h : Sound s) : NextSound (execPendingTrapDeliver ag s) := by
  unfold Machine.execPendingTrapDeliver
  extract_lets t
  have ht : Sound t := h.focusOn
  clear_value t
  split
  · split
    · split; exacts [ht.onCoro.trapEntry.next, h.next]
    · exact h.next
  · split
    · split; exacts [ht.onFocus.trapEntry.next, h.next]
    · exact h.next

theorem Sound.execAsyncTrapTake (h : Sound s) : NextSound (execAsyncTrapTake cid s) := by
  unfold Machine.execAsyncTrapTake
  split
  · exact h.next
  · extract_lets t
    have ht : Sound t := h.focusOn
    have hp : Sound (t.onCore cid Core.popAsync) := ht.onCore
    split; · exact hp.trapEntry.next
    split
    · split; exacts [hp.onFocus.trapEntry.next, h.next]
    · exact h.next

end Sys2Proof.Safety
end

section
namespace Sys2Proof.Safety

open Sys2Proof Sys2Proof.Machine Sys2Proof.Laws

variable {s t : State} {i : Instr} {x y : Word} {k : Coro} {w : EWord} {ag : Agent} {img : Image}
  {cid gid coid ep part q qsb n m p u v : Nat} {c z : Bool} {cs ps : List Nat}

/-! ### Partitions: commands and drains -/

theorem Sound.loadRoots (h : Sound s) : Sound (s.loadRoots p) := by unfold State.loadRoots; split <;> exact h

theorem Sound.setHalt (h : Sound s) : Sound (s.setHalt p c) := h

theorem Sound.setPartState (h : Sound s) : Sound (s.setPartState p n) := h.setField

theorem Sound.resetHarts (h : Sound s) : Sound (s.resetHarts cid) := h

theorem Sound.resetCore (h : Sound s) : Sound (s.resetCore cid) := h.resetHarts.onCore

theorem Sound.commandDone (h : Sound s) : Sound (s.commandDone p) := Sound.endCommand (by exact h)

theorem Sound.execActivate (h : Sound s) : NextSound (execActivate p s) := by
  unfold Machine.execActivate
  split
  · exact h.next
  · exact (h.sourced (h.foldl fun _ _ ht => ht.resetCore).loadRoots.setHalt.setPartState.commandDone).next

theorem Sound.execResetPartition (h : Sound s) : NextSound (execResetPartition p s) := by
  unfold Machine.execResetPartition; split; exacts [h.next, (h.sourced h.loadRoots.setHalt.setPartState.commandDone).next]

theorem Sound.execRelease (h : Sound s) : NextSound (execRelease p s) := by
  unfold Machine.execRelease
  extract_lets t
  have ht : Sound t := h
  split; exacts [h.next, (h.sourced ht.setPartState.commandDone).next]

theorem Sound.dropWaits (h : Sound s) {g : Going} : Sound (s.dropWaits cs g) := h.dropUnits

theorem Sound.dropCores (h : Sound s) {g : Going} : Sound (s.dropCores cs g) := h.dropWaits (cs := cs) (g := g)

theorem Sound.freeCores (h : Sound s) : Sound (s.freeCores cs) := h.foldl fun _ _ ht => ht.onCore

theorem Sound.renumber (h : Sound s) {l : List Copy} : Sound (s.renumber l) := h

theorem Sound.endPageIns (h : Sound s) : Sound (s.endPageIns p) := h

theorem Sound.kickGoing (h : Sound s) : Sound (s.kickGoing cs) := by
  unfold State.kickGoing
  extract_lets t
  have ht : Sound t := h.foldl fun _ _ hu => by split; exacts [hu.later, hu]
  split; exacts [ht.later, ht]

theorem Sound.endWait (h : Sound s) : Sound (s.endWait q qsb) := by
  unfold State.endWait
  split
  · extract_lets; split <;> exact h
  · exact h

theorem Sound.drainQueue (h : Sound s) : Sound (s.drainQueue q qsb).1 := by
  unfold State.drainQueue
  extract_lets rung st halt s1 s2 s3 s4
  split
  · exact h
  · have h1 : Sound s1 := h.endWait
    have h2 : Sound s2 := by unfold s2; split; exacts [h1.onSlot, h1]
    exact h2.writeBack.fwPut.bitmap

theorem Sound.drainQueues (h : Sound s) : Sound (s.drainQueues p).1 :=
  foldl_keeps (P := fun a : State × Nat => Sound a.1) h fun _ _ ha =>
    foldl_keeps (P := fun a : State × Nat => Sound a.1) ha fun _ _ hb => hb.drainQueue

theorem Sound.scrub (h : Sound s) : Sound (s.scrub cs) := by
  unfold State.scrub
  extract_lets s1 s2
  have h1 : Sound s1 := h.freeCores.foldl fun _ _ ht => ht.setCore rfl
  have h2 : Sound s2 := h1.foldl fun _ _ ht => ht.releaseHolds
  exact (h2.foldl fun _ _ ht => ht.wake).settleAll

theorem Sound.restartSeq (h : Sound s) : Sound (s.restartSeq cs) := h

theorem Sound.forgetRefused (h : Sound s) : Sound (s.forgetRefused cs) := h.foldl fun _ _ ht => ht.onCore

theorem Sound.drainBegin (h : Sound s) : Sound (s.drainBegin p) := by
  unfold State.drainBegin
  extract_lets l mine counts g s1 s2 s3
  have h1 : Sound s1 := h.setPartState.setHalt
  have h2 : Sound s2 := (Sound.foldl h1.dropCores fun _ _ ht => ht.resetHarts).renumber.forgetRefused
  clear_value s2
  have h3 : Sound s3 := h2
  exact h3.freeCores.endPageIns.kickGoing

theorem Sound.drainDrop (h : Sound s) : Sound (s.drainDrop p cs) := h

theorem Sound.drainEnd (h : Sound s) {counts : List Nat} : Sound (s.drainEnd p counts) := by
  unfold State.drainEnd
  extract_lets l s1 s2 f
  have h1 : Sound s1 := h.dropCores
  have h2 : Sound s2 := h1.of_same rfl rfl rfl rfl
  have h3 := h2.drainQueues (p := p)
  split
  next s3 haltq hq =>
  rw [hq] at h3
  extract_lets s4 s5 ws s6
  have h4 : Sound s4 := h3.of_same rfl rfl rfl rfl
  have h5 : Sound s5 := (h4.scrub.foldl fun _ _ ht => ht.resetCore).restartSeq
  have h6 : Sound s6 := h5.foldl fun _ _ ht => ht.fwPut
  exact h6.setPartState.commandDone

theorem Sound.execDrain (h : Sound s) : NextSound (execDrain p s) := by
  unfold Machine.execDrain
  split
  · exact h.next
  · extract_lets l t
    have ht : Sound t := h.drainDrop
    split
    · split; · exact h.retry.next
      split
      · exact Sound.next (Sound.endCommand (by exact h))
      · exact h.drainBegin.later.next
    · split
      · exact ht.kickGoing.retry.next
      · exact (h.sourced ht.drainEnd).next

/-! ### Partitions: freezes -/

/-- Both answers of a hart that is asked leave a sound state. -/
def AskedSound (r : Machine.Asked) : Prop :=
  match r with
  | .clear t | .busy t => Sound t

theorem Sound.askHart (h : Sound s) : AskedSound (s.askHart cid n c) := by
  unfold State.askHart
  extract_lets t held
  have ht : Sound t := h.focusOn
  have hh : Sound held := by unfold held; clear_value t; split; exacts [ht.onCoro, ht]
  clear_value t held
  split
  · split; · exact h
    split; · exact hh.takePre
    split; exacts [hh.onFocus.takePre, hh.onFocus]
  · split; · exact h
    split; exacts [ht.onFocus, hh.onFocus]

theorem Sound.askCore (h : Sound s) : Sound (s.askCore cid c).1 := by
  unfold State.askCore
  extract_lets r rest
  have hr : Sound r.1 := foldl_keeps (P := fun a : State × Bool => Sound a.1) h fun a n ha => by
    have hx : AskedSound (a.1.askHart cid n c) := ha.askHart
    generalize a.1.askHart cid n c = o at hx ⊢
    cases o with
    | clear t => exact hx
    | busy t => exact hx
  clear_value r
  exact hr.foldl fun _ _ ht => ht.setPre.onCoro

theorem Sound.unhold (h : Sound s) : Sound (s.unhold cid) := h.foldl fun _ _ ht => ht.onCoro.restoreCoro

theorem rehome_spad (k : Core) : k.rehome.spad = k.spad :=
  by
  unfold Core.rehome; rw [foldl_spad]; exact fun _ _ => rfl

theorem Sound.sendAll (h : Sound s) : Sound (s.sendAll cid) := by unfold State.sendAll; extract_lets t; split; exacts [h.sendLines, h.sendLines.later]

theorem Sound.postAll (h : Sound s) {e : FwEvent} : Sound (s.postAll e) := h.foldl fun _ _ ht => ht.postEvent

theorem Sound.freezeQueue (h : Sound s) {e : Nat × Nat} : Sound (s.freezeQueue q e).1 := h.endWait.writeBack

theorem Sound.freezeQueues (h : Sound s) : Sound (s.freezeQueues ps).1 :=
  foldl_keeps (P := fun a : State × List FrozenQueue => Sound a.1) h fun _ _ ha =>
    foldl_keeps (P := fun a : State × List FrozenQueue => Sound a.1) ha fun _ _ hb => hb.freezeQueue

theorem Sound.freezeMoves (h : Sound s) : Sound (s.freezeMoves cs) := by
  unfold State.freezeMoves
  extract_lets s1 s2
  have h1 : Sound s1 := h.foldl fun _ _ ht => ht.sendAll
  have h2 : Sound s2 := h1.foldl fun t cp ht => by split <;> exact ht
  split; exacts [h2.later, h2]

theorem Sound.sign (h : Sound s) : Sound s.sign.1 := by unfold State.sign; extract_lets; split <;> exact h

theorem moveWords_rising {l : List Nat} (h : risingFrom none l = true) : risingFrom none (moveWords n m l) = true :=
  foldl_keeps (P := fun l => risingFrom none l = true) (rising_filter _ h) fun _ _ hl =>
    rising_insert (rising_erase _ hl) fun _ hy => nomatch hy

/-- A frame of device memory that is moved, with the empty and the poisoned words of its bytes (R85, R360). -/
theorem copyFrame_wf {g : Mem} (h : g.wf resetByte = true) : (g.copyFrame n m).wf resetByte = true := by
  unfold Mem.copyFrame
  extract_lets t
  have ht : t.wf resetByte = true := foldl_keeps (P := fun t : Mem => t.wf resetByte = true) h fun _ _ hu => setByte_wf hu _ _
  clear_value t
  obtain ⟨hc, _, _⟩ := mem_wf_iff.mp ht
  obtain ⟨_, he, hp⟩ := mem_wf_iff.mp h
  exact mem_wf_iff.mpr ⟨hc, moveWords_rising he, moveWords_rising hp⟩

theorem copyFrames_wf {α : Type} {g : Mem} {l : List α} {f f' : α → Nat} (h : g.wf resetByte = true) :
    (l.foldl (fun t e => t.copyFrame (f e) (f' e)) g).wf resetByte = true :=
  foldl_keeps (P := fun t : Mem => t.wf resetByte = true) h fun _ _ ht => copyFrame_wf ht

theorem Sound.seenMem (h : Sound s) : s.seenMem.wf resetByte = true := copyFrames_wf h.1.1

/-- An image whose pages and scratchpads are in canonical form. -/
def ImageSound (img : Image) : Prop := img.pages.wf resetByte = true ∧ ∀ p ∈ img.cores, p.2.spad.wf zeroByte = true

theorem Sound.imageOf (h : Sound s) {f : Freezing} : ImageSound (s.imageOf ps cs f) := by
  refine ⟨restrict_wf h.seenMem _ _, fun p hp => ?_⟩
  obtain ⟨cid, _, rfl⟩ := List.mem_map.mp hp
  exact h.core

/-- A sealed image is kept beside the others. -/
theorem Sound.keepImage (h : Sound s) (hi : ImageSound img) (hm : t.mem = s.mem) (hh : t.host = s.host) (hc : t.cores = s.cores)
    (he : t.images = s.images.filter (·.addr != n) ++ [img]) : Sound t := by
  refine ⟨by unfold MemoriesWf; rw [hm, hh, hc]; exact h.1, fun g hg => ?_⟩
  rw [he] at hg
  rcases List.mem_append.mp hg with hg | hg
  · exact h.2 g (List.mem_filter.mp hg).1
  · cases List.mem_singleton.mp hg; exact hi

theorem Sound.dropGangCopies (h : Sound s) {l : List Copy} : Sound (l.foldl (fun t k => t.dropCopy k.id) s) :=
  h.foldl fun _ _ ht => Sound.dropUnits (by exact ht)

theorem Sound.cancelGang (h : Sound s) {g : Nat × Nat} : Sound (s.cancelGang g) := by
  unfold State.cancelGang
  extract_lets s1 s2 s3 s4 s5
  have h1 : Sound s1 := h.foldl fun _ _ ht => ht.onCore
  have h2 : Sound s2 := h1.dropGangCopies
  have h4 : Sound s4 := h2.dropPushes.dropUnits
  clear_value s4
  have h5 : Sound s5 := h4
  exact h5.onGang

theorem Sound.finishFreeze (h : Sound s) {f : Freezing} : Sound (s.finishFreeze ps cs f) := by
  unfold State.finishFreeze
  extract_lets g leaf
  have hg : ImageSound g := h.imageOf
  have h1 := h.sign
  clear_value g
  split
  next s1 ecdsa lms hs =>
  rw [hs] at h1
  extract_lets img s2 s3 s4 s5
  have hi : ImageSound img := hg
  clear_value img
  have h2 : Sound s2 := h1.keepImage hi rfl rfl rfl rfl
  have h3 : Sound s3 := h2.dropCores.freeCores
  have h4 : Sound s4 := h3.of_same rfl rfl rfl rfl
  have h5 : Sound s5 := h4.foldl fun _ _ ht => ht.endPageIns.setPartState
  exact h5.postAll

theorem Sound.managementNack (h : Sound s) : Sound s.managementNack := h

theorem Sound.askCores (h : Sound s) : Sound (cs.foldl (fun (a : State × Bool) n =>
    let b := a.1.askCore n c
    (b.1, a.2 && b.2)) (s, z)).1 := by
  refine foldl_keeps (P := fun a : State × Bool => Sound a.1) h fun _ _ ha => ?_
  dsimp only
  exact ha.askCore

theorem Sound.execFreeze (h : Sound s) : NextSound (execFreeze n m s) := by
  unfold Machine.execFreeze
  split; · exact h.managementNack.next
  split
  · split; · exact h.retry.next
    extract_lets l t s1 r f
    have hr : Sound r.1 := h.postAll.freezeQueues
    split; exacts [h.next, (h.sourced (Sound.later (by exact hr))).next]
  · extract_lets l cs lost r t f2 t2
    have hr : Sound r.1 := h.askCores
    have ht : Sound t := hr.foldl fun _ _ hu => hu.cancelGang
    have ht2 : Sound t2 := ht.of_same rfl rfl rfl rfl
    split; exacts [(h.sourced ht2.finishFreeze).next, ht2.freezeMoves.retry.next]

/-! ### Partitions: thaws -/

theorem Sound.relink (h : Sound s) {e : FrozenQueue} : Sound (s.relink e) := by
  unfold State.relink
  extract_lets pri l old
  split; · exact h
  split; exacts [h.fwPut.onQuad, h.fwPut.fwPut]

theorem Sound.thawQueue (h : Sound s) {e : FrozenQueue} : Sound (s.thawQueue e) := by
  unfold State.thawQueue
  extract_lets q linked nxt s1 s2 s3 tok s4
  have h1 : Sound s1 := h.foldl fun _ _ ht => ht.fwPut
  have h2 : Sound s2 := h1.fwPut
  have h3 : Sound s3 := by unfold s3; split; exacts [h2.fwPut, h2.relink]
  have h4 : Sound s4 := by unfold s4; split; exacts [h3.bitmap, h3]
  split; · exact h4.postEvent
  split
  · split
    · exact h4
    next u hu =>
      have hu : Sound u := h4.takeSlot hu
      split
      · exact hu
      · have hw := hu.startWait (q := q) (qsb := e.qsb) (part := bits (u.qword q e.qsb 8) 50 47) (n := u.rdidx q e.qsb) (x := tok)
        split
        next e => rw [e] at hw; exact hw
        next e => rw [e] at hw; exact hw
  · exact h4

theorem Sound.restorePages (h : Sound s) (hi : ImageSound img) : (s.restorePages img).wf resetByte = true :=
  copyFrames_wf (restore_wf h.1.1 hi.1 _)

theorem thawed_spad (k c : Core) : (k.thawed c).spad = c.spad := rehome_spad _

theorem Sound.thawCores (h : Sound s) {l : List (Nat × Core)} (hl : ∀ p ∈ l, p.2.spad.wf zeroByte = true) :
    Sound (l.foldl (fun t c => t.onCore c.1 fun k => k.thawed c.2) s) := by
  induction l generalizing s with
  | nil => exact h
  | cons c l ih =>
    refine ih (h.setCore ?_) fun p hp => hl p (List.mem_cons_of_mem _ hp)
    rw [thawed_spad]; exact hl c List.mem_cons_self

theorem Sound.thawImage (h : Sound s) (hi : ImageSound img) : Sound (s.thawImage img) := by
  unfold State.thawImage
  extract_lets l s1 s2 live s3 fab s4 s5 s6 s7 s8 s9 s10 s11 s12
  have h1 : Sound s1 := ⟨⟨h.restorePages hi, h.1.2⟩, h.2⟩
  have h2 : Sound s2 := h1.foldl fun t r ht => by split <;> exact ht
  have h3 : Sound s3 := h2.thawCores hi.2
  have h4 : Sound s4 := h3.of_same rfl rfl rfl rfl
  have h5 : Sound s5 := h4.foldl fun _ _ ht => ht.setPartState
  have h6 : Sound s6 := h5.foldl fun _ _ ht => ht.takeBack.unhold.kickInbox
  have h7 : Sound s7 := h6.foldl fun _ _ ht => ht.later
  have h8 : Sound s8 := by unfold s8; split; exacts [h7, h7.later]
  have h9 : Sound s9 := h8.foldl fun _ _ ht => ht.resendKept
  have h10 : Sound s10 := by unfold s10; split; exacts [h9, h9.later]
  have h11 : Sound s11 := h10.foldl fun _ _ ht => ht.later
  have h12 : Sound s12 := h11.foldl fun _ _ ht => ht.thawQueue
  exact h12.settleAll.postAll

theorem Sound.execThaw (h : Sound s) : NextSound (execThaw n c s) := by
  unfold Machine.execThaw
  split; · exact h.managementNack.next
  split
  · exact h.next
  next img hm =>
    have hi : ImageSound img := h.2 img (List.mem_of_find?_eq_some hm)
    split; · exact h.next
    split; exacts [(h.sourced (h.thawImage hi)).next, h.next]

end Sys2Proof.Safety
end

section
namespace Sys2Proof.Safety

open Sys2Proof Sys2Proof.Machine Sys2Proof.Laws

variable {s t : State} {i : Instr} {x y : Word} {ag : Agent} {ml : MoltLease} {cid gid coid ep part q n m p u v : Nat} {c z : Bool}

/-! ### Health, checking and leases -/

theorem Sound.setHealth (h : Sound s) : Sound (s.setHealth n m p q v) := h.setField

theorem Sound.blame (h : Sound s) : Sound (s.blame n m p) := by
  unfold State.blame
  extract_lets v t r
  have ht : Sound t := h.setHealth
  split; · exact h
  split; exacts [ht.later, ht]

theorem Sound.execScoreDecay (h : Sound s) : NextSound (execScoreDecay n m s) := by
  unfold Machine.execScoreDecay; split; exacts [h.next, h.setHealth.next]

theorem Sound.blameLane (h : Sound s) {o : Option Nat} : Sound (s.blameLane o) := by cases o; exacts [h, h.blame]

theorem Sound.charge (h : Sound s) {r : CheckRound} : Sound (s.charge n r) := by
  cases r; exacts [h.blameLane, h.blameLane, h.blameLane.blameLane]

theorem Sound.execCheckingPoint (h : Sound s) {l : List CheckRound} : NextSound (execCheckingPoint ag l s) := by
  unfold Machine.execCheckingPoint
  extract_lets t
  have ht : Sound t := h.focusOn
  clear_value t
  split
  · exact h.next
  next u us _ =>
    extract_lets t2 kept drop
    have h2 : Sound t2 := ht.foldl fun _ _ hu => hu.charge
    clear_value t2
    split; exacts [h2.onFocus.next, h2.onFocus.next]

theorem Sound.poisonPlace (h : Sound s) {e : ErrorAt} : Sound (s.poisonPlace e) := by
  unfold State.poisonPlace; split; exacts [h.putPoison, h.onHart, h.onHart, h.onSaved]

theorem Sound.storageError (h : Sound s) {e : ErrorAt} {r : ErrorKind} : Sound (s.storageError e r n m) := by
  unfold State.storageError
  extract_lets k t
  have ht : Sound t := by unfold t; split; exacts [h.blame, h]
  split; · exact h
  split; exacts [ht.poisonPlace, ht]

theorem Sound.logRecord (h : Sound s) : Sound (s.logRecord n m p q u v) := by
  unfold State.logRecord
  extract_lets e t
  have ht : Sound t := h
  have h2 := ht.sign
  split
  next t2 _ _ e =>
  rw [e] at h2
  exact Sound.of_same (s := t2) h2 rfl rfl rfl rfl

theorem Sound.notifyAll (h : Sound s) : Sound (s.notifyAll n m p) := h.foldl fun _ _ ht => by split; exacts [ht.generate, ht]

theorem Sound.startTests (h : Sound s) : Sound (s.startTests ml) := h.setHealth (n := ml.kind) (m := ml.index) (p := 55) (q := 52) (v := 1)

theorem Sound.noSpare (h : Sound s) : Sound (s.noSpare n cid) := by
  unfold State.noSpare
  extract_lets e t
  have ht : Sound t := by unfold t; split; exacts [h, Sound.logRecord (by exact h)]
  split; exacts [ht.setHealth.onCore, ht]

theorem Sound.moveCore (h : Sound s) : Sound (s.moveCore ml) := by
  unfold State.moveCore
  extract_lets cid s1 s2 s3 e s4 s5 left s6
  have h1 : Sound s1 := h.resetHarts.onCore fun c => rehome_spad _
  have h3 : Sound s3 := h1.setHealth.setHealth.setHealth
  clear_value s3
  have h4 : Sound s4 := h3
  have h5 : Sound s5 := h4.unhold.respill
  have h6 : Sound s6 := h5.foldl fun _ _ ht => ht.generate
  exact h6.startTests

theorem Sound.withdrawCore (h : Sound s) : Sound (s.withdrawCore ml) := by
  unfold State.withdrawCore
  extract_lets r t
  have ht : Sound t := h.askCore.sendAll
  split; exacts [ht.moveCore, ht.kickGoing.retry]

theorem Sound.leaseCore (h : Sound s) : Sound (s.leaseCore n) := by
  unfold State.leaseCore
  split
  · split; exacts [h, h.withdrawCore]
  · extract_lets l st
    split; · exact h.retry
    split; · exact h.startTests
    split; · exact h
    split
    · split; exacts [h.retry, h]
    · split
      · exact h.noSpare
      · exact Sound.withdrawCore (by exact h)

theorem Sound.standDown (h : Sound s) : Sound (s.standDown n) := by unfold State.standDown; split <;> exact h

theorem Sound.withdrawPort (h : Sound s) : Sound (s.withdrawPort n).1 := by
  unfold State.withdrawPort
  split; · exact h
  split; exacts [h.setPort, h.setPortState.setPort]

theorem Sound.withdrawn (h : Sound s) : Sound (s.withdrawn n m).1 := by
  unfold State.withdrawn; split; exacts [h.withdrawPort, h.standDown, h]

theorem Sound.withdraw (h : Sound s) : Sound (s.withdraw ml) := by
  unfold State.withdraw
  extract_lets r u e t
  have hr : Sound r.1 := h.withdrawn
  have ht : Sound t := by unfold t; split <;> exact hr
  split; exacts [hr.startTests, ht.retry]

theorem Sound.execTestLease (h : Sound s) : NextSound (execTestLease n m s) := by
  unfold Machine.execTestLease
  extract_lets r
  split; · exact h.next
  split; · exact h.leaseCore.next
  split
  · exact Sound.next (by split; exacts [h, h.withdraw])
  · split; · exact h.next
    split; exacts [h.retry.next, h.withdraw.next]

theorem Sound.endLease (h : Sound s) : Sound (s.endLease ml) := by
  unfold State.endLease
  extract_lets e t
  have ht : Sound t := h
  split; exacts [ht.foldl fun _ _ hu => hu.later, ht]

theorem Sound.returnResource (h : Sound s) : Sound (s.returnResource ml) := by
  unfold State.returnResource
  extract_lets e s1 s2 s3
  have h1 : Sound s1 := by unfold s1; split <;> exact h
  exact h1.setHealth.setHealth.setHealth.endLease

theorem Sound.retireResource (h : Sound s) : Sound (s.retireResource ml) := by
  unfold State.retireResource
  extract_lets id s1 e s2 seq detail s3
  have h1 : Sound s1 := h.setHealth
  clear_value s1
  have h2 : Sound s2 := h1
  have h3 : Sound s3 := h2.logRecord
  refine Sound.endLease ?_
  split; exacts [h3, h3.notifyAll]

theorem Sound.execTestPassEnd (h : Sound s) : NextSound (execTestPassEnd n m c s) := by
  unfold Machine.execTestPassEnd
  split
  · exact h.next
  · extract_lets v third s1 s2
    have h2 : Sound s2 := h.setHealth.setHealth
    clear_value s2
    split; · exact h.next
    split; · exact h.returnResource.next
    split
    · split; exacts [h2.returnResource.next, h2.retireResource.next]
    · exact Sound.next h2

/-! ### Spare rows and frames -/

theorem Sound.poolFrame (h : Sound s) : Sound s.poolFrame.2 := by
  unfold State.poolFrame
  extract_lets
  split; · exact h
  split <;> exact h.putNum

theorem Sound.replaceFrame (h : Sound s) : Sound (s.replaceFrame n m) := by
  unfold State.replaceFrame
  extract_lets lost e s1
  have h1 : Sound s1 := ⟨⟨copyFrame_wf h.1.1, h.1.2⟩, h.2⟩
  exact h1.foldl fun _ _ ht => ht.putPoison

theorem Sound.retireFrame (h : Sound s) : Sound (s.retireFrame n m) := by
  unfold State.retireFrame
  extract_lets id frame r seq
  have hr : Sound r.2 := h.poolFrame
  clear_value r
  split
  · exact hr.replaceFrame.logRecord.notifyAll
  · exact Sound.notifyAll (Sound.logRecord hr)

theorem Sound.trySpares (h : Sound s) {bad l : List Nat} : Sound (s.trySpares n m bad c l) := by
  induction l generalizing s with
  | nil => exact h.retireFrame
  | cons k r ih =>
    unfold State.trySpares
    split
    · exact ih (Sound.logRecord (by exact h))
    · split; exacts [Sound.logRecord (by exact h), h]

theorem Sound.rowTested (h : Sound s) {r : Nat × Nat × Nat} : Sound (s.rowTested r c) := by
  unfold State.rowTested; extract_lets e t; have ht : Sound t := h; split; exacts [Sound.logRecord (by exact ht), ht]

theorem Sound.execRowSpareCopy (h : Sound s) {bad : List Nat} : NextSound (execRowSpareCopy n m bad c s) := by
  unfold Machine.execRowSpareCopy
  split; · exact h.next
  split
  · exact Sound.next (by split; exacts [h.rowTested, h])
  · split; exacts [h.next, h.trySpares.next]

end Sys2Proof.Safety
end

section
namespace Sys2Proof.Safety

open Sys2Proof Sys2Proof.Machine Sys2Proof.Laws

variable {s t : State} {i : Instr} {x y : Word} {e : Eft} {cid gid coid ep part q n m p u v : Nat} {c z : Bool} {bs : List Byte}

/-! ### Ports and the host -/

theorem Sound.onPort (h : Sound s) {f : State → State} (hf : Sound (f s)) : NextSound (s.onPort n f) :=
  Sound.next (by split; exacts [hf, h])

theorem Sound.execPeerWrite (h : Sound s) : NextSound (execPeerWrite n m s) := h.onPort (by split; exacts [h, h.portPeer])

theorem Sound.spdm (h : Sound s) : NextSound (s.spdm n m c) := by
  unfold State.spdm
  split; · exact h.managementNack.next
  refine h.onPort ?_
  extract_lets pt t sent f
  split; · exact h
  split; exacts [h.portError, h.setPort]

theorem Sound.execKeyUpdate (h : Sound s) {k : KeySide} : NextSound (execKeyUpdate k s) := by
  unfold Machine.execKeyUpdate
  extract_lets port
  refine h.onPort ?_
  extract_lets pt
  split; exacts [h, h.setPort.setField]

theorem Sound.sendFlit (h : Sound s) : Sound (s.sendFlit n) := by
  unfold State.sendFlit
  extract_lets pt k d t
  have ht : Sound t := h.setPort
  split; · exact h
  split; · exact h.portError
  split; exacts [ht.later, ht]

theorem Sound.execFlitReceive (h : Sound s) : NextSound (execFlitReceive n c z s) := by
  refine h.onPort ?_
  split; · exact h
  extract_lets pt t k
  have ht : Sound t := by unfold t; split; exacts [h.blame, h]
  split; exacts [ht.portError, ht.setPort]

theorem Sound.execLinkRetrain (h : Sound s) : NextSound (execLinkRetrain n c s) := by
  refine h.onPort ?_
  extract_lets pt k t
  have ht : Sound t := h.blame.setPort
  split; exacts [ht.portError, ht]

theorem Sound.postHost (h : Sound s) {l kept : List (Nat × Nat × List Byte)} : Sound (s.postHost l kept) := by
  induction l generalizing s kept with
  | nil => exact h
  | cons w l ih =>
    unfold State.postHost
    split; · exact ih h
    extract_lets bytes
    split
    next t ht => exact ih (h.perform t ht)
    next => exact ih h

theorem Sound.execHostWrite (h : Sound s) : NextSound (execHostWrite n m bs s) := by
  unfold Machine.execHostWrite
  extract_lets new t
  have ht : Sound t := h.postHost
  exact Sound.next (by split; exacts [ht, ht.retry])

theorem Sound.execHostRead (h : Sound s) : NextSound (execHostRead n m p s) := by
  unfold Machine.execHostRead; split; exacts [Sound.next h, h.next]

theorem Sound.hostStore (h : Sound s) : Sound (s.hostStore n bs) := by
  unfold State.hostStore; split; exacts [h.perform _ ‹_›, h]

theorem Sound.setLink (h : Sound s) : Sound (s.setLink n c) := by unfold State.setLink; split <;> exact h

theorem Sound.execHostLinkUp (h : Sound s) : NextSound (execHostLinkUp n s) := by
  unfold Machine.execHostLinkUp; split; exacts [h.setLink.next, h.next]

theorem Sound.execHostLinkDown (h : Sound s) : NextSound (execHostLinkDown n s) := h.setLink.next

/-! ### Boot, sensors and credits -/

theorem Sound.putHealth (h : Sound t) : Sound (State.putHealth t s) := by
  unfold State.putHealth
  extract_lets u
  have hu : Sound u := h.foldl fun _ _ ht => ht.putNum
  exact hu.foldl fun _ _ ht => by split; exacts [ht, ht.putNum]

/-- A held reset keeps host memory and the images, and every core that it lists has a fresh scratchpad. -/
theorem Sound.heldReset (h : Sound s) : Sound (s.heldReset e) := by
  obtain ⟨⟨_, hh, _⟩, hi⟩ := h
  refine ⟨⟨rfl, hh, fun k hk => ?_⟩, hi⟩
  obtain ⟨b, _, rfl⟩ := List.mem_map.mp hk
  rfl

theorem Sound.loadPayloads (h : Sound s) {f : FwSlot} : Sound (s.loadPayloads f) := h.foldl fun _ _ ht => ht.putBytes

theorem Sound.boot (h : Sound s) : Sound s.boot := by
  unfold State.boot
  extract_lets e base
  have hb : Sound base := h.heldReset
  clear_value base
  split
  · exact hb.alert
  · extract_lets t evidence t2 f
    have h2 : Sound t2 := hb.loadPayloads.putHealth.putNum.sign
    exact h2.of_same rfl rfl rfl rfl

theorem Sound.execCommitSvn (h : Sound s) : NextSound (execCommitSvn s) := by
  unfold Machine.execCommitSvn; split; exacts [Sound.next h, h.next]

theorem Sound.execFirmwareUpdateWrite (h : Sound s) {f : FwSlot} : NextSound (execFirmwareUpdateWrite f s) := Sound.next h

theorem Sound.execSensorRead (h : Sound s) : NextSound (execSensorRead n s) := by
  unfold Machine.execSensorRead; split; exacts [h.alert.next, h.next]

theorem Sound.thermalTrip (h : Sound s) : Sound s.thermalTrip := h.logRecord.alert.heldReset

theorem Sound.hotSpot (h : Sound s) : Sound (s.hotSpot n v) := by
  unfold State.hotSpot
  extract_lets l low q steps f t
  have ht : Sound t := h
  split; exacts [ht.thermalTrip, ht]

theorem Sound.hbmSample (h : Sound s) : Sound (s.hbmSample n v) := h

theorem Sound.coolant (h : Sound s) : Sound s.coolant := h

theorem Sound.flowSample (h : Sound s) : Sound (s.flowSample v) := by
  unfold State.flowSample
  split; · exact h
  split
  · exact h
  · split; exacts [h.thermalTrip, h]

theorem Sound.execSensorSample (h : Sound s) : NextSound (execSensorSample n v s) := by
  unfold Machine.execSensorSample
  split; · exact h.next
  extract_lets f t
  have ht : Sound t := h
  split; · exact ht.hotSpot.next
  split; · exact ht.hbmSample.next
  split; · exact ht.coolant.next
  split; exacts [ht.coolant.flowSample.next, ht.next]

theorem Sound.execCreditGrant (h : Sound s) : NextSound (execCreditGrant n m s) := by
  unfold Machine.execCreditGrant; split; exacts [Sound.next h, h.next]

theorem Sound.execCreditFloor (h : Sound s) : NextSound (execCreditFloor n s) := by
  unfold Machine.execCreditFloor; split; exacts [Sound.next h, h.next]

theorem Sound.managed (h : Sound s) {f : State → State} (hf : Sound (f s)) : NextSound (s.managed f) :=
  Sound.next (by split; exacts [hf, h.managementNack])

theorem Sound.execPodKeyProvision (h : Sound s) : NextSound (execPodKeyProvision n s) := h.managed h

theorem Sound.execEidAssign (h : Sound s) {o : Option Nat} : NextSound (execEidAssign o s) := h.managed h

/-! ### Messages that arrive -/

theorem Sound.execOverflowMove (h : Sound s) : NextSound (execOverflowMove cid s) := by
  unfold Machine.execOverflowMove
  split
  · exact h.next
  · split; · exact h.retry.next
    split
    · exact h.next
    next u hu =>
      extract_lets t1 k t2 t3
      have h1 : Sound t1 := Sound.onCore (h.placeInbox hu)
      have h2 : Sound t2 := by unfold t2; split; exacts [h1.releaseHolds, h1]
      have h3 : Sound t3 := by unfold t3; split; exacts [h2, h2.later]
      exact Sound.next (by split; exacts [h3, h3.later])

theorem Sound.execGeneratedMsgPlace (h : Sound s) : NextSound (execGeneratedMsgPlace cid s) := by
  unfold Machine.execGeneratedMsgPlace
  split
  · exact h.next
  · split
    next hu =>
      have hu := Sound.arrive (Sound.onCore h) hu
      extract_lets t
      have ht : Sound t := Sound.onCore hu
      exact Sound.next (by split; exacts [ht, ht.later])
    next => exact h.retry.next
    next => exact h.next
    next => exact h.next

theorem Sound.execMessageResend (h : Sound s) : NextSound (execMessageResend n s) := by
  unfold Machine.execMessageResend
  extract_lets all
  split
  · exact h.next
  · split
    · exact h.next
    · exact Sound.next (Sound.resendKept (Sound.send (by exact h)))

theorem Sound.execHandlerCreate (h : Sound s) : NextSound (execHandlerCreate cid s) := by
  unfold Machine.execHandlerCreate
  extract_lets k part
  have hk : k.spad.wf zeroByte = true := h.core
  split
  · exact h.next
  · extract_lets raised none_ base mark
    have hn : Sound none_ := by unfold none_; split; exacts [h, Sound.postAsync (h.setCore (by exact hk))]
    split
    · exact hn.next
    · split
      · exact hn.next
      · split; · exact h.next
        split
        next hu => exact Sound.next (Sound.retry (h.create hu))
        next hu =>
          extract_lets t
          have ht : Sound t := Sound.onCore (h.create hu)
          exact Sound.next (by split; exacts [ht.later, ht])

end Sys2Proof.Safety
end

section
namespace Sys2Proof.Safety

open Sys2Proof Sys2Proof.Machine Sys2Proof.Laws

variable {s t : State} {i : Instr} {x y : Word} {l : Loc} {ag : Agent} {r : Req} {rq : OutReq} {rp : Resp} {b : Block} {w : EWord}
  {cid gid coid ep part q n m p u v : Nat} {c z : Bool} {bs : List Byte} {ns : List Nat}

/-! ### Allowances and stores that leave -/

theorem Sound.restoredBy (h : Sound s) : Sound (s.restoredBy ep) := by unfold State.restoredBy; split <;> exact h

theorem Sound.execAllowanceGrant (h : Sound s) : NextSound (execAllowanceGrant ep u s) := by
  unfold Machine.execAllowanceGrant
  extract_lets t
  have ht : Sound t := h.restoredBy
  split; exacts [ht.grant.resendKept.next, ht.next]

theorem Sound.execAllowanceReservedGrant (h : Sound s) : NextSound (execAllowanceReservedGrant ep s) := by
  unfold Machine.execAllowanceReservedGrant; extract_lets w; split; exacts [h.grant.resendKept.next, h.next]

theorem Sound.storeLeaves (h : Sound s) {k : RemoteStore} : Sound (s.storeLeaves cid k n) := by
  unfold State.storeLeaves
  extract_lets t1 t2
  have h2 : Sound t2 := (Sound.onCore h).send.sendLines
  split; exacts [h2, h2.later]

theorem Sound.execRemoteStoreSend (h : Sound s) : NextSound (execRemoteStoreSend cid s) := by
  unfold Machine.execRemoteStoreSend
  extract_lets heads
  split
  next t k hf =>
    obtain ⟨a, _, ha⟩ := List.exists_of_findSome?_eq_some hf
    obtain ⟨t', hd, he⟩ := Option.map_eq_some_iff.mp ha
    cases he
    exact (h.draw hd).storeLeaves.next
  next => exact Sound.next (h.foldl fun _ _ ht => ht.queueFor)

theorem Sound.execCombineFlushTimeout (h : Sound s) : NextSound (execCombineFlushTimeout cid n s) := by
  unfold Machine.execCombineFlushTimeout
  split
  · exact h.next
  · split; exacts [h.next, h.sendLines.later.next]

/-! ### Requests that arrive -/

/-- Every answer to a request leaves a sound state. -/
def ServedSound (r : Served) : Prop :=
  match r with
  | .answer t _ | .nack t => Sound t
  | .wait => True

theorem Sound.servedOf (h : Sound s) {e : Stop} : ServedSound (Served.of s e) := by
  cases e with
  | wait => exact trivial
  | trap => exact h

theorem Sound.poisonAll (h : Sound s) {ls : List Loc} : Sound (ls.foldl (fun t l => t.putPoison l true) s) := h.foldl fun _ _ ht => ht.putPoison

theorem Sound.remoteWrite (h : Sound s) {data : List (Option Byte)} : Yields Sound (s.remoteWrite part n data ns) :=
  yields_bind_any fun _ => h.perform.bind fun _ ht => yields_pure.mpr ht.poisonAll

theorem Sound.serveVec (h : Sound s) {k : VecReq} : ServedSound (s.serveVec part k) := by
  unfold State.serveVec
  extract_lets n
  split; · exact h
  split
  · exact h.servedOf
  · split; · exact h
    extract_lets ws
    split
    · exact h.servedOf
    next ht => exact (h.perform _ ht).foldl fun _ _ hu => hu.poisonAll

theorem Sound.serveAtomic (h : Sound s) : ServedSound (s.serveAtomic part r) := by
  unfold State.serveAtomic
  split
  · split; · exact h
    split
    · exact h.servedOf
    · split; · exact h
      split
      next ht => exact h.atomicAt _ ht
      next => exact h.servedOf
  · split; · exact h
    split
    · exact h.servedOf
    · split
      · exact h
      · split; · exact h
        split
        next ht => exact h.feAt _ ht
        next ht => exact h.feAt _ ht
        next => exact h.servedOf
  · exact h

theorem Sound.serveSync (h : Sound s) : ServedSound (s.serveSync part r) := by
  unfold State.serveSync
  extract_lets root
  split
  · split
    · exact h
    · split; · exact trivial
      split; exacts [h.contributeAt, h]
  · split <;> exact h
  · split; exacts [h, h.addWaiter]
  · exact h

theorem Sound.holdPush (h : Sound s) {k : HeldPush} : ServedSound (s.holdPush k c) := by
  unfold State.holdPush
  extract_lets f put
  have hp (l : List HeldPush) : Sound (put l) := h
  split
  · show Sound _; split; exacts [hp _, h]
  · show Sound _; split; exacts [h, hp _]

theorem Sound.servePush (h : Sound s) : ServedSound (s.servePush part r) := by
  unfold State.servePush
  split
  · extract_lets last k
    split
    · exact h.holdPush
    · split; · exact h
      split
      · split
        · exact h.servedOf
        next ht =>
          have ht := h.storeEls _ ht
          extract_lets f t
          have ht : Sound t := ht
          split
          · extract_lets u; exact ht.partLanded
          · exact ht
      · exact h
  · exact h

theorem Sound.remoteWake (h : Sound s) : Sound (s.remoteWake n m) := h.foldl fun _ _ ht => by split; exacts [ht.register, ht]

theorem Sound.remoteWakeQueues (h : Sound s) : Sound (s.remoteWakeQueues n m) :=
  h.foldl fun _ _ ht => ht.foldl fun _ _ hu => by split; exacts [hu.askWait, hu]

theorem Sound.serveBound (h : Sound s) : ServedSound (s.serveBound part c r) := by
  unfold State.serveBound
  extract_lets need
  split; · exact h
  split
  · split; · exact h
    split; exacts [h.servedOf, h]
  · split; · exact h
    split
    · exact h.servedOf
    next ht => exact h.remoteWrite _ ht
  · exact h.serveVec
  · exact h.serveAtomic
  · exact h.serveAtomic
  · exact h.serveSync
  · exact h.serveSync
  · exact h.serveSync
  · split; · exact h
    split
    next ht => exact h.arrive ht
    next ht => exact h.arrive ht
    next ht => exact h.arrive ht
    next => exact trivial
  · exact h.servePush
  · exact h.remoteWake.remoteWakeQueues

theorem Sound.noteSeq (h : Sound s) : Sound (s.noteSeq r) := h

theorem Sound.firstSeq (h : Sound s) : Sound (s.firstSeq r) := by unfold State.firstSeq; split <;> exact h

theorem Sound.serveNow (h : Sound s) : Sound (s.serveNow i r) := by
  unfold State.serveNow
  split
  · exact h.noteSeq.refuse
  next part wr _ =>
    have hv : ServedSound (s.serveBound part wr r) := h.serveBound
    split; · exact h.noteSeq.refuse
    split
    next ht => rw [ht] at hv; exact (Sound.noteSeq hv).respond
    next ht => rw [ht] at hv; exact (Sound.noteSeq hv).refuse
    next => exact h.firstSeq.retry

theorem Sound.serve (h : Sound s) : Sound (s.serve i r) := by
  unfold State.serve
  split; · exact h
  split; exacts [h.respond, h.retry, h.serveNow]

theorem Sound.execRemoteAtomicRequest (h : Sound s) : NextSound (execRemoteAtomicRequest r s) := by
  unfold Machine.execRemoteAtomicRequest; split; exacts [h.serve.next, h.serve.next, h.serve.next, h.serve.next, h.serve.next, h.next]

/-! ### Answers -/

theorem Sound.settlePorts (h : Sound s) : Sound s.settlePorts :=
  h.reroute.foldl fun _ _ ht => by split; exacts [ht.setPortState.setPort, ht]

theorem Sound.unsend (h : Sound s) : Sound (s.unsend n) := Sound.settlePorts (by exact h)

theorem Sound.answered (h : Sound s) (ha : s.answered ag n = some t) : Sound t := by
  unfold State.answered at ha
  extract_lets t at ha
  split at ha
  · cases ha; exact h.focusOn.onFocus
  · cases ha


theorem Sound.writeV (h : Sound s) {d : BitVec 6} {l : List (Nat × Nat × Nat × Bool)} : Sound (s.writeV d n l).state := h

theorem Sound.vloadDone (h : Sound s) : Sound (s.vloadDone bs ns) := by
  unfold State.vloadDone
  split
  · exact h
  · split
    · exact h
    · split
      · exact h
      · extract_lets kind as mine; exact Sound.complete h.writeV

theorem Sound.feHeldAt (h : Sound s) : Sound (s.feHeldAt rq n c) := by
  unfold State.feHeldAt
  split
  · extract_lets f t
    have ht : Sound t := h
    split; exacts [ht.saveFull, h]
  · exact h

theorem Sound.traceBack (h : Sound s) {k : Trap} : Sound (s.traceBack cid gid coid k) := by
  unfold State.traceBack
  split; · exact h.onHart
  split; exacts [h, h.onCoro]

theorem Sound.keepMsg (h : Sound s) {k : KeptMsg} : Sound (s.keepMsg k) := by
  unfold State.keepMsg
  extract_lets earlier f0 f t g
  have ht : Sound t := h
  split; · split; exacts [ht, ht.resendKept]
  split <;> exact h

theorem Sound.msgSettled (h : Sound s) : Sound (s.msgSettled rq) := by
  unfold State.msgSettled
  extract_lets t u
  have ht : Sound t := h.resendKept
  have hu : Sound u := by unfold u; split; exacts [ht, ht.later]
  split; exacts [hu.kickGenerated, hu]

theorem Sound.answerValue (h : Sound s) : Sound (s.answerValue n x) := h.result

theorem Sound.onAnswer (h : Sound s) : Sound (s.onAnswer rq rp) := by
  unfold State.onAnswer
  extract_lets gone
  have hg : Sound gone := h.unsend
  clear_value gone
  split
  · split
    next ha => exact (hg.answered ha).answerValue
    next => exact h
  · split
    · split
      next ha => exact (h.answered ha).feHeldAt
      next => exact h
    · extract_lets k; split; exacts [hg.onHart, h]
    · exact h
  · split
    · split; exacts [h.retry, hg.feDone]
    · exact hg
    · exact h
  · split
    next ha => exact (hg.answered ha).stepPc.retire
    next ha => exact (hg.answered ha).swordTrap
    next => exact h
  · split
    next ha => split; exacts [(hg.answered ha).answerValue, (hg.answered ha).swordTrap]
    next => exact h
  · split
    next ha => have ht := hg.answered ha; exact ht
    next => exact h
  · split
    next ha => exact (hg.answered ha).vloadDone
    next => exact h
  · split
    · exact hg.copyStore
    · exact hg.copyLanded
    · exact hg
  · split
    · exact hg.reportUninit.copyDone
    · exact hg.copyDone
  · exact hg
  · exact hg
  · split; exacts [hg.keepMsg, hg.msgSettled]
  · split
    · split; exacts [hg.testTokens, hg.answerWaits]
    · exact hg
  · split
    · exact hg
    · split
      · exact hg.setPush.kickExits.retry
      · extract_lets left g2 t
        have h2 : Sound g2 := by unfold g2; split; exacts [hg.reportUninit, hg]
        have ht : Sound t := by unfold t; split; exacts [h2.dropPush, h2.setPush]
        exact ht.kickExits.later

theorem Sound.execRemoteResponse (h : Sound s) : NextSound (execRemoteResponse n rp s) := by
  unfold Machine.execRemoteResponse
  split
  · exact h.next
  · exact Sound.next (by split; exacts [h.sourced h.onAnswer, h])

theorem Sound.execRemoteAcknowledgement (h : Sound s) : NextSound (execRemoteAcknowledgement n s) := by
  unfold Machine.execRemoteAcknowledgement
  split
  · exact h.next
  · exact Sound.next (by split; exacts [h.onAnswer, h])

theorem Sound.reportRefused (h : Sound s) {who : Contributor} {k : Trap} : Sound (s.reportRefused x who k) := by
  unfold State.reportRefused; split; exacts [h.postAsync, h.postEvent, h]

theorem Sound.execRemoteNack (h : Sound s) : NextSound (execRemoteNack n s) := by
  unfold Machine.execRemoteNack
  split
  · exact h.next
  extract_lets gone k dst
  have hg : Sound gone := h.unsend
  clear_value gone
  split; · exact h.next
  have hsync (a : Agent) : NextSound (match gone.answered a n with | some u => .next (u.swordTrap k) | none => .next gone) := by
    split
    next ha => exact (hg.answered ha).swordTrap.next
    next => exact hg.next
  split
  · exact hsync _
  · exact hsync _
  · exact hsync _
  · exact hsync _
  · extract_lets u
    have hu : Sound u := hg.focusOn
    split; exacts [hu.onFocus.swordTrap.next, hg.next]
  · exact hg.traceBack.ready.next
  · split
    next ha =>
      split
      · exact (hg.answered ha).ewordTrap
      · exact (hg.answered ha).next
    next => exact hg.next
  · split
    · extract_lets; exact hg.abortCopy.next
    · exact hg.next
  · split; exacts [hg.abortCopy.next, hg.reportRefused.next]
  · exact hg.traceBack.next
  · exact hg.traceBack.msgSettled.next
  · split; · exact (h.sourced hg.refusedWaits).next
    extract_lets mine
    exact Sound.next (hg.foldl fun _ _ ht => ht.traceBack.ready)
  · exact hg.next
  · split; exacts [hg.next, hg.traceBack.dropPush.kickExits.next]

end Sys2Proof.Safety
end

section
namespace Sys2Proof.Safety

open Sys2Proof Sys2Proof.Machine Sys2Proof.Laws

variable {s t : State} {i : Instr} {x y : Word} {w : EWord} {b : Block} {d a e : Reg} {r : BitVec 3} {cid n m p : Nat} {c z : Bool}
  {cols : List Nat}

/-! ### Vector words: elements, reductions, masks and moves -/

theorem Sound.writeK (h : Sound s) {l : List (Nat × Nat × Nat)} : Sound (s.writeK n m p l).state := h

theorem Sound.writeX (h : Sound s) {g : BitVec 6} : Sound (s.writeX g n x c).state := h

theorem Sound.each (h : Sound s) {g : Nat → Nat → Nat → Flagged} : YieldsDone (s.each b w n g) := by
  unfold State.each
  extract_lets
  exact yields_bind_any fun _ => yields_bind_any fun _ => yields_pure.mpr h.writeV

theorem Sound.arith (h : Sound s) {f : EType → FpEnv → FVal → FVal → FVal → Flagged} {g : Nat → Bool → Int → Int → Int → Flagged} :
    YieldsDone (s.arith b w n f g) := by
  unfold State.arith; extract_lets; exact h.each

theorem Sound.shift (h : Sound s) {g : Nat → Nat → Nat → Nat} : YieldsDone (s.shift b w g) := by
  unfold State.shift; extract_lets; exact h.each

theorem Sound.execVcmp (h : Sound s) : NextSound (execVcmp w s) :=
  h.eword fun b w => by
    extract_lets
    refine yields_bind_any fun _ => yields_bind_any fun _ => ?_
    split; exacts [yields_pure.mpr h, yields_pure.mpr h.writeK]

theorem Sound.reduceEnd (h : Sound s) {l : List Nat} : Sound (s.reduceEnd w n m l) := h.setCtx

theorem Sound.reduce (h : Sound s) : YieldsDone (s.reduce b w n) := by
  unfold State.reduce
  extract_lets
  split
  · exact yields_pure.mpr h.writeV
  · refine yields_bind_any fun _ => ?_
    split
    extract_lets parts total u d lane go
    have hd : Sound d.state := h.reduceEnd.writeV
    have hg : ∀ r, YieldsDone (go r) := fun _ => yields_bind_any fun _ => yields_pure.mpr hd
    clear_value go
    split; exacts [yields_bind_any hg, hg ()]

theorem Sound.scan (h : Sound s) : YieldsDone (s.scan b w n) := by
  unfold State.scan
  extract_lets
  split; · exact yields_pure.mpr h
  split; · exact yields_pure.mpr h
  exact yields_bind_any fun _ => yields_bind_any fun _ => yields_bind_any fun _ => yields_pure.mpr h.reduceEnd.writeV

theorem Sound.convertV (h : Sound s) {g : EType → EType → FpEnv → Nat → Nat → Flagged} : YieldsDone (s.convertV b w c g) := by
  unfold State.convertV
  extract_lets _ _ _ _ go
  have hg : ∀ r, YieldsDone (go r) := fun _ => yields_pure.mpr h.writeV
  clear_value go
  refine yields_bind_any fun _ => yields_bind_any fun _ => ?_
  split; exacts [yields_bind_any hg, hg ()]

theorem Sound.maskOp (h : Sound s) {g : Nat → Bool} : YieldsDone (s.maskOp b w c g) :=
  yields_bind_any fun _ => yields_bind_any fun _ => by split; exacts [yields_pure.mpr h, yields_pure.mpr h.writeK]

theorem Sound.maskScalar (h : Sound s) : YieldsDone (s.maskScalar b w x) :=
  yields_bind_any fun _ => yields_bind_any fun _ => yields_pure.mpr h.writeX

theorem Sound.mergeV (h : Sound s) : Sound (s.mergeV b w).state := h

theorem Sound.execVmergeF (h : Sound s) : NextSound (execVmergeF w s) :=
  h.eword fun b w => by
    split; · exact yields_ok.mpr h
    split; exacts [yields_error, yields_ok.mpr h.mergeV.setCtx]

theorem Sound.moveV (h : Sound s) {l : List (Nat × Option Nat × Nat)} : Sound (s.moveV w l c).state := h

theorem Sound.moving (h : Sound s) {g : List Nat → List (Nat × Option Nat × Nat)} {k : Bool} :
    YieldsDone (s.moving b w fun l => s.moveV w (g l) k) := yields_bind_any fun _ => yields_pure.mpr h.moveV

theorem Sound.execVperm (h : Sound s) : NextSound (execVperm w s) := h.eword fun _ _ => yields_bind_any fun _ => h.moving

theorem Sound.execVcompress (h : Sound s) : NextSound (execVcompress w s) := h.eword fun _ _ => yields_bind_any fun _ => yields_pure.mpr h.moveV

theorem Sound.execVexpand (h : Sound s) : NextSound (execVexpand w s) := h.eword fun _ _ => yields_bind_any fun _ => yields_pure.mpr h.moveV

theorem Sound.execViota (h : Sound s) : NextSound (execViota w s) := h.eword fun _ _ => yields_bind_any fun _ => h.moving

theorem Sound.execVmovx (h : Sound s) : NextSound (execVmovx w s) :=
  h.eword fun b w => by
    extract_lets
    split; exacts [yields_ok.mpr h.writeX, yields_ok.mpr h.writeX]

theorem Sound.execVstop (h : Sound s) : NextSound (execVstop w s) := by
  unfold Machine.execVstop
  split
  · split; · exact h.next
    split; · exact h.ewordTrap
    split
    next => exact h.commitSome.next
    next => exact h.ewordTrap
    next u hu =>
      refine Sound.next (Sound.onFocus ?_)
      split at hu
      · exact h.commitAll _ hu
      · cases hu; exact h
  · exact h.illegal

/-! ### Matrix words -/

theorem Sound.writeT (h : Sound s) {g : BitVec 6} {l : List (Nat × Nat × Nat × Bool)} : Sound (s.writeT g n l).state := h

theorem Sound.matrix (h : Sound s) {f : Block → EWord → Except Stop Done} (hf : ∀ b w, YieldsDone (f b w)) : NextSound (s.matrix i f) :=
  h.eword fun b w => by split; exacts [yields_error, hf b w]

theorem Sound.windowed (h : Sound s) {f : Block → EWord → List Nat → Except Stop Done} (hf : ∀ b w l, YieldsDone (f b w l)) :
    NextSound (s.windowed i f) :=
  h.matrix fun b w => by
    extract_lets l
    split
    · exact yields_ok.mpr h
    · exact yields_bind_any fun _ => hf b w l

theorem Sound.outer (h : Sound s) : YieldsDone (s.outer b w cols c) :=
  yields_bind_any fun _ => yields_bind_any fun _ => yields_pure.mpr h.writeT

theorem Sound.execOpaSp (h : Sound s) : NextSound (execOpaSp w s) :=
  h.windowed fun _ _ _ => yields_bind_any fun _ => by
    dsimp only
    split
    · exact yields_error
    · exact yields_bind_any fun _ => yields_pure.mpr h.writeT

theorem Sound.execMstart (h : Sound s) : NextSound (execMstart w s) :=
  h.eword fun _ _ => yields_ok.mpr (by dsimp only; split <;> exact h)

theorem Sound.execMstop (h : Sound s) : NextSound (execMstop w s) :=
  h.eword fun _ _ => yields_ok.mpr (by dsimp only; split <;> exact h)

theorem Sound.matLoad (h : Sound s) {addr idx : Nat × Nat → Nat} {l : List (Nat × Nat)} :
    Yields (fun r => Sound r.1) (s.matLoad n addr idx l) := by
  induction l generalizing s with
  | nil => exact yields_ok.mpr h
  | cons e l ih =>
    unfold State.matLoad
    split
    · exact yields_error
    next ht => exact (ih (h.elemAccess _ ht)).bind fun _ hu => yields_pure.mpr hu

theorem Sound.execMld (h : Sound s) : NextSound (execMld w s) :=
  h.windowed fun _ _ _ => h.matLoad.bind fun _ ht => yields_pure.mpr (Sound.writeT ht)

theorem Sound.matStore (h : Sound s) {l : List (Nat × Nat)} : Yields (fun r => Sound r.1) (s.matStore b w l) := by
  induction l generalizing s with
  | nil => exact yields_ok.mpr h
  | cons e l ih =>
    unfold State.matStore
    extract_lets n a
    split
    · exact yields_error
    next ht => exact (ih (h.elemAccess _ ht)).bind fun _ hu => yields_pure.mpr hu

theorem Sound.execMst (h : Sound s) : NextSound (execMst w s) :=
  h.windowed fun _ _ _ => h.matStore.bind fun _ ht => yields_pure.mpr (Sound.addPend ht)

theorem Sound.execMlatch (h : Sound s) : NextSound (execMlatch w s) :=
  h.matrix fun _ _ => by
    extract_lets
    split
    · exact yields_pure.mpr h
    · exact yields_bind_any fun _ => h.matLoad.bind fun _ ht => yields_pure.mpr (Sound.setCtx ht)

theorem Sound.rotate (h : Sound s) : Sound (s.rotate cid) := h.foldl fun _ _ ht => by split; exacts [ht.onHart, ht]

theorem Sound.execMrot (h : Sound s) : NextSound (execMrot w s) :=
  h.matrix fun _ _ => by
    split
    · exact yields_error
    · extract_lets t all
      have ht : Sound t := h.onFocus
      refine yields_ok.mpr ?_
      dsimp only
      split; exacts [ht.rotate, ht]

theorem Sound.execMmovV (h : Sound s) : NextSound (execMmovV w s) := h.matrix fun _ _ => yields_bind_any fun _ => yields_pure.mpr h.writeV

theorem Sound.execVmovM (h : Sound s) : NextSound (execVmovM w s) :=
  h.matrix fun _ _ => yields_bind_any fun _ => by dsimp only; split; exacts [yields_pure.mpr h.writeT, yields_pure.mpr h]

theorem Sound.execMcvt (h : Sound s) : NextSound (execMcvt w s) := h.windowed fun _ _ _ => yields_bind_any fun _ => yields_pure.mpr h.writeT

/-! ### Scalar float words -/

theorem Sound.fpResult (h : Sound s) {f : Flagged} {l : List Reg} : Sound (s.fpResult d f l) := h.raise.result

theorem Sound.fp2 (h : Sound s) {f : EType → FpEnv → FVal → FVal → Flagged} : Sound (s.fp2 d a e r z f) := h.fpResult

end Sys2Proof.Safety
end

section
namespace Sys2Proof.Safety

open Sys2Proof Sys2Proof.Machine Sys2Proof.Laws

variable {s : State}

/-! ### Every instruction -/

theorem Sound.execCsrw (h : Sound s) {a : Reg} {n : BitVec 12} : NextSound (execCsrw a n s) := by
  unfold Machine.execCsrw; extract_lets v; exact h.csrOp

theorem Sound.execCsrs (h : Sound s) {a : Reg} {n : BitVec 12} : NextSound (execCsrs a n s) := by
  unfold Machine.execCsrs; extract_lets v; exact h.csrOp

theorem Sound.execCsrc (h : Sound s) {a : Reg} {n : BitVec 12} : NextSound (execCsrc a n s) := by
  unfold Machine.execCsrc; extract_lets v; exact h.csrOp

theorem Sound.execLsync (h : Sound s) : NextSound (execLsync s) := h.releaseFence

theorem Sound.execLockPort (h : Sound s) {n : Nat} : NextSound (execLockPort n s) := by
  unfold Machine.execLockPort; exact h.onPort h.portLock

theorem Sound.execStartPort (h : Sound s) {n : Nat} : NextSound (execStartPort n s) := by
  unfold Machine.execStartPort; exact h.onPort h.portStart

theorem Sound.execStopPort (h : Sound s) {n : Nat} : NextSound (execStopPort n s) := by
  unfold Machine.execStopPort; exact h.onPort h.portStop

/-- EVERY INSTRUCTION AND EVERY EVENT keeps every memory in canonical form: one line per arm, arms of one shape together. -/
theorem Sound.exec (h : Sound s) (i : Instr) : NextSound (exec i s) := by
  cases i with
  | add | sub | mul | mulh | mulhn | div | divn | rem | remn | and | or | xor | sll | srl | sra | slli | srli | srai | slt | sltn | min
   | max | minn | maxn | clz | ctz | popc | addi | andi | ori | xori | slti | lui | aipc => exact h.result.next
  | ldB | ldBn | ldH | ldHn | ldW | ldWn | ldD => exact h.loadInto
  | stB | stH | stW | stD => exact h.storeFrom
  | beq | bne | blt | bge | bltn | bgen | bsa => exact h.branchOn
  | loopv => exact h.execLoopv
  | jal => exact h.execJal
  | jalr => exact h.execJalr
  | vfetch => exact h.fetchBlock
  | vfetchReg => exact h.execVfetchReg
  | loopst => exact h.execLoopst
  | setvl => exact h.execSetvl
  | settl => exact h.execSettl
  | stripend => exact h.execStripend
  | csrr => exact h.execCsrr
  | csrw => exact h.execCsrw
  | csrs => exact h.execCsrs
  | csrc => exact h.execCsrc
  | scall | trap => exact h.call
  | eret => exact h.execEret
  | wfm => exact h.execWfm
  | fadd | fsub | fmul | fdiv => exact h.checked h.fp2.next
  | fsqrt | fcvt | fcvtToInt | fma => exact h.checked h.fpResult.next
  | fmin | fmax | fcmp => exact h.fpResult.next
  | cp => exact h.execCp
  | cpG => exact h.execCpG
  | cpS => exact h.execCpS
  | rget => exact h.execRget
  | rput => exact h.execRput
  | ratom => exact h.execRatom
  | await => exact h.execAwait
  | awaitany => exact h.execAwaitany
  | sinit => exact h.execSinit
  | expect => exact h.execExpect
  | arrive => exact h.execArrive
  | sgen => exact h.execSgen
  | tkmake => exact h.execTkmake
  | ldfe => exact h.execLdfe
  | stfe => exact h.execStfe
  | feset => exact h.execFeset
  | feclr => exact h.execFeclr
  | amo => exact h.execAmo
  | fenceRel | fenceAr | fenceSc => exact h.releaseFence
  | fenceAcq => exact h.execFenceAcq
  | lsync => exact h.execLsync
  | msend => exact h.execMsend
  | spawn => exact h.execSpawn
  | yield => exact h.execYield
  | cexit => exact h.execCexit
  | galloc => exact h.execGalloc
  | gfree => exact h.execGfree
  | gdecl => exact h.execGdecl
  | gstep => exact h.execGstep
  | gwait => exact h.execGwait
  | gdrop => exact h.execGdrop
  | vnop => exact h.eword fun _ _ => yields_ok.mpr h
  | vstop => exact h.execVstop
  | vadd | vsub | vmul | vfma | vfms | vfnma | vdiv | vsqrt | vrsqrt | vrcp | vexp2 | vlog2 | vmulh | vsadd | vssub => exact h.eword fun _ _ => h.arith
  | vmin | vmax | vabs | vneg | vand | vor | vxor | vnot | vclz | vpopc => exact h.eword fun _ _ => h.each
  | vshl | vshr | vsra => exact h.eword fun _ _ => h.shift
  | vcmp => exact h.execVcmp
  | kand | kor | kxor | knot | ksbf | ksif | ksof => exact h.eword fun _ _ => h.maskOp
  | kpopc | kfirst => exact h.eword fun _ _ => h.maskScalar
  | vmerge => exact h.eword fun _ _ => yields_ok.mpr h.mergeV
  | vmergeF => exact h.execVmergeF
  | vslideup | vslidedn | vid | vbcast | vins => exact h.eword fun _ _ => h.moving
  | vperm => exact h.execVperm
  | vcompress => exact h.execVcompress
  | vexpand => exact h.execVexpand
  | viota => exact h.execViota
  | vmovx => exact h.execVmovx
  | vredsum | vredmax | vredmin => exact h.eword fun _ _ => h.reduce
  | vscanAdd | vscanMax => exact h.eword fun _ _ => h.scan
  | vcvt | vscale => exact h.eword fun _ _ => h.convertV
  | vld => exact h.eword fun _ _ => h.loadV
  | vlds => exact h.execVlds
  | vldx => exact h.execVldx
  | vldff => exact h.execVldff
  | vldg => exact h.execVldg
  | vpref => exact h.execVpref
  | vst => exact h.eword fun _ _ => h.storeV
  | vsts => exact h.execVsts
  | vstx => exact h.execVstx
  | vstg => exact h.execVstg
  | vsqCommit => exact h.execVsqCommit
  | vsqDrop => exact h.execVsqDrop
  | mstart => exact h.execMstart
  | mstop => exact h.execMstop
  | mzero => exact h.windowed fun _ _ _ => yields_ok.mpr h.writeT
  | opa | ops => exact h.windowed fun _ _ _ => h.outer
  | opaSp => exact h.execOpaSp
  | mld => exact h.execMld
  | mst => exact h.execMst
  | mlatch => exact h.execMlatch
  | mrot => exact h.execMrot
  | mmovV => exact h.execMmovV
  | vmovM => exact h.execVmovM
  | mcvt => exact h.execMcvt
  | wakeNotice => exact h.retest.next
  | waiterReread => exact h.execWaiterReread
  | contribute => exact h.execContribute
  | remoteNack => exact h.execRemoteNack
  | remoteResponse => exact h.execRemoteResponse
  | activate => exact h.execActivate
  | drain => exact h.execDrain
  | resetPartition => exact h.execResetPartition
  | release => exact h.execRelease
  | waitSignalled => exact h.execWaitSignalled
  | handlerCreate => exact h.execHandlerCreate
  | overflowMove => exact h.execOverflowMove
  | generatedMsgPlace => exact h.execGeneratedMsgPlace
  | messageResend => exact h.execMessageResend
  | messageArrival | remoteRequest | vectorRequest => exact h.serve.next
  | contextFetch => exact h.execContextFetch
  | hartSelect => exact h.execHartSelect
  | asyncTrapTake => exact h.execAsyncTrapTake
  | pendingTrapDeliver => exact h.execPendingTrapDeliver
  | wfmResume => exact h.execWfmResume
  | quantumSwitch => exact h.execQuantumSwitch
  | preemptTake => exact h.execPreemptTake
  | preempt => exact h.execPreempt
  | restore => exact h.execRestore
  | move => exact h.execMove
  | discard => exact h.execDiscard
  | gangExit => exact h.execGangExit
  | skinkWriteLand => exact h.execSkinkWriteLand
  | copyPieceLand => exact h.execCopyPieceLand
  | copyRewalk => exact h.execCopyRewalk
  | pageInFrameRetry => exact h.execPageInFrameRetry
  | pageInComplete => exact h.execPageInComplete
  | heldContributionRewalk => exact h.execHeldContributionRewalk
  | remoteStoreSend => exact h.execRemoteStoreSend
  | unallocatedOpcode => exact h.execUnallocatedOpcode
  | fetchFault => exact h.execFetchFault
  | remoteAtomicRequest => exact h.execRemoteAtomicRequest
  | keyUpdate => exact h.execKeyUpdate
  | testLease => exact h.execTestLease
  | checkingPoint => exact h.execCheckingPoint
  | hostWrite => exact h.execHostWrite
  | freeze => exact h.execFreeze
  | timer => exact h.execTimer
  | watchdog => exact h.execWatchdog
  | thaw => exact h.execThaw
  | mrotWithdraw => exact h.execMrotWithdraw
  | remoteAcknowledgement => exact h.execRemoteAcknowledgement
  | priorityPromote => exact h.onCoro.next
  | quantumExpire => exact h.execQuantumExpire
  | allowanceGrant => exact h.execAllowanceGrant
  | allowanceReservedGrant => exact h.execAllowanceReservedGrant
  | combineFlushTimeout => exact h.execCombineFlushTimeout
  | lockPort => exact h.execLockPort
  | startPort => exact h.execStartPort
  | stopPort => exact h.execStopPort
  | peerWrite => exact h.execPeerWrite
  | getVersion | getCapabilities | negotiateAlgorithms | getDigests | getCertificate | challenge | getMeasurements | keyExchange
   | finish => exact h.spdm
  | flitReceive => exact h.execFlitReceive
  | linkRetrain => exact h.execLinkRetrain
  | hostRead => exact h.execHostRead
  | hostLinkUp => exact h.execHostLinkUp
  | hostLinkDown => exact h.execHostLinkDown
  | powerOn | resetModule => exact h.boot.next
  | commitSvn => exact h.execCommitSvn
  | firmwareUpdateWrite => exact h.execFirmwareUpdateWrite
  | logRead => exact h.alert.next
  | sensorRead => exact h.execSensorRead
  | sensorSample => exact h.execSensorSample
  | podKeyProvision => exact h.execPodKeyProvision
  | eidAssign => exact h.execEidAssign
  | creditGrant => exact h.execCreditGrant
  | creditFloor => exact h.execCreditFloor
  | scoreDecay => exact h.execScoreDecay
  | testPassEnd => exact h.execTestPassEnd
  | rowSpareCopy => exact h.execRowSpareCopy
  | forcedRollback => exact h.execForcedRollback
  | preemptRollback => exact h.execPreemptRollback
  | stallTimeout => exact h.execStallTimeout
  | walkerTurn => exact h.execWalkerTurn
  | vcfgWrite => exact h.change h.writeVcfg
  | fmaskWrite => exact h.writeFmask.next
  | slpartWrite | inboxcfgWrite | ovfcfgWrite | ovfbaseWrite | inboxdropHead => exact h.change h.writeSuper
  | qbmbaseWrite => exact h.writeQbmbase.next
  | wctlWrite => exact h.writeWctl.next
  | fevqRead => exact h.execFevqRead
  | ftcmpWrite => exact h.writeFtcmp.next
  | registerWrite => exact h.change h.csrWrite

end Sys2Proof.Safety
end

section
namespace Sys2Proof.Safety

open Sys2Proof Sys2Proof.Machine Sys2Proof.Laws

variable {s t : State} {i : Instr} {a : Agent} {img : Image} {cid n m : Nat}

/-! ### What moves next, and the step -/

theorem Sound.pass (h : Sound s) : Sound (s.pass cid n) := by
  unfold State.pass
  extract_lets k f t
  have ht : Sound t := h.onCore
  exact ht

theorem Sound.watch (h : Sound s) : Sound s.watch := h.foldl fun _ _ ht => ht.onQuad

theorem Sound.setTick (h : Sound s) : Sound { s with tick := n } := h

theorem Sound.clock (h : Sound s) : Sound s.clock := by
  unfold State.clock
  extract_lets k t
  have ht : Sound t := by unfold t; split; exacts [h.pass, h.onQuad.onFocus]
  exact ht.watch.setTick

/-- The state in which a chosen instruction or event is executed is sound. -/
def MoveSound (o : Option (Instr × State)) : Prop := ∀ i t, o = some (i, t) → Sound t

theorem moveSound_none : MoveSound none := fun _ _ he => nomatch he

theorem Sound.move (h : Sound s) : MoveSound (some (i, s)) := fun _ _ he => by cases he; exact h

theorem Sound.spend (h : Sound s) (he : s.spend = some t) : Sound t := by
  unfold State.spend at he
  split at he
  · cases he; exact h
  · split at he
    · cases he; exact h
    · cases he
    · cases he; exact h

theorem Sound.spendMove (h : Sound s) : MoveSound (s.spend.map fun t => (i, t)) := fun j t he => by
  obtain ⟨u, hu, hp⟩ := Option.map_eq_some_iff.mp he
  cases hp
  exact h.spend hu

theorem Sound.frontIssue (h : Sound s) : MoveSound s.frontIssue := by
  unfold State.frontIssue; split; exacts [h.spendMove, h.move]

theorem Sound.laneIssue (h : Sound s) : MoveSound s.laneIssue := fun i t he => by
  obtain ⟨j, _, hj⟩ := Option.bind_eq_some_iff.mp he
  exact h.spendMove _ _ hj

theorem Sound.frontMove (h : Sound s) : MoveSound s.frontMove := by
  unfold State.frontMove
  split
  · exact h.move
  · split; · exact h.frontIssue
    split; exacts [h.laneIssue, moveSound_none]

theorem Sound.laneMove (h : Sound s) : MoveSound s.laneMove := by
  unfold State.laneMove
  split
  · exact h.move
  · split; · exact moveSound_none
    split
    · exact h.laneIssue
    · split; exacts [h.frontIssue, moveSound_none]

theorem Sound.freeMove (h : Sound s) : MoveSound s.freeMove := by
  unfold State.freeMove
  split
  · split; exacts [h.clock.move, moveSound_none]
  · split; exacts [h.focusOn.clock.frontMove, moveSound_none]
  · split; exacts [h.focusOn.clock.laneMove, moveSound_none]
  · exact moveSound_none

theorem Sound.fetchAhead (h : Sound s) : Sound (s.fetchAhead a n m) := by
  unfold State.fetchAhead
  extract_lets t k
  split; · exact h
  split; exacts [h.onHart, h]

/-- The image of another device comes in canonical form (R330, R389). -/
theorem imageSound_of_canonical (hg : img.canonical = true) : ImageSound img := by
  unfold Image.canonical at hg
  obtain ⟨hp, hc⟩ := Bool.and_eq_true_iff.mp hg
  exact ⟨hp, List.all_eq_true.mp hc⟩

theorem Sound.bring (h : Sound s) : Sound s.bring := by
  unfold State.bring
  split
  · exact h.storageError
  · split <;> exact h
  · exact h.fetchAhead
  · exact h.hostStore
  · exact h.sendFlit
  · split
    next hg => exact h.keepImage (imageSound_of_canonical hg) rfl rfl rfl rfl
    next => exact h
  · exact h

theorem Sound.setAgenda (h : Sound s) {l : List Turn} : Sound { s with agenda := l } := h

theorem Sound.nextMove (h : Sound s) : MoveSound s.next := by
  unfold State.next
  split
  · exact h.setAgenda.clock.move
  · exact h.setAgenda.focusOn.clock.frontMove
  · exact h.setAgenda.focusOn.clock.laneMove
  · exact h.setAgenda.freeMove
  · have hf := h.freeMove
    split
    next he => rw [he] at hf; exact hf
    next => exact h.bring.clock.laneMove

theorem Sound.stoppedMove (h : Sound s) : MoveSound s.stoppedMove := by
  unfold State.stoppedMove
  have hn := h.nextMove
  split
  next he => split; exacts [(hn _ _ he).move, moveSound_none]
  next => exact moveSound_none

theorem Sound.onClocks (h : Sound s) {f : State → State} (hf : Sound (f s)) : Sound (s.onClocks f) := by
  unfold State.onClocks; split; exacts [hf, h]

theorem Sound.idleStep (h : Sound s) : Sound s.idleStep := by
  unfold State.idleStep
  split
  · exact h.setAgenda.focusOn.clock
  · exact h.setAgenda.focusOn.clock
  · exact (h.setAgenda.onClocks h.setAgenda.bring).clock

theorem Sound.step (h : Sound s) : NextSound (step s) := by
  have hm : MoveSound (if s.eft.clocks then s.next else s.stoppedMove) := by split; exacts [h.nextMove, h.stoppedMove]
  unfold Machine.step
  split
  next he => exact (hm _ _ he).exec _
  next => exact h.idleStep.next

/-- Settles O56: a step executes a chosen instruction or event, or lets time pass, and each of these keeps the canonical form. -/
theorem memoriesStayCanonical : Obligations.MemoriesStayCanonical := fun _ t h hr => h.step t hr

end Sys2Proof.Safety
end

section
namespace Sys2Proof.Safety

open Sys2Proof Sys2Proof.Machine Sys2Proof.Tests

/-! ### A VCFG write also ends the mark of VL -/

/-- A coroutine whose VL is marked poisoned, as a SETVL from a poisoned register leaves it (R354), with the value 3 in x5. -/
def vlMarked : State := (withX user 5 3).onFocus fun h => { h with ctx := { h.ctx with poison := [vlMark] } }

/-- CSRW of a new VN sets VL to 0 and with it ends VL's mark (R47, R354). -/
theorem csrw_vcfg_clears_vlMark :
    (match exec (.csrw 5 0x12) vlMarked with | .next t => t.hart.ctx.poison | _ => [vlMark]) = [] := by decide +kernel

/-- Refutes O10: a VCFG write of a new VN, here 3 from x5, clears VL and so VL's poison mark too, where the statement filters out only the
words of the vector and mask registers and keeps that mark. -/
theorem not_csrWritesKeepReservedBits : ¬ Obligations.CsrWritesKeepReservedBits := by
  unfold Obligations.CsrWritesKeepReservedBits
  intro h
  obtain ⟨_, _, hnew, _⟩ := h vlMarked 5 ⟨rfl, rfl, rfl⟩ (by decide +kernel : xWord 5 ∉ vlMarked.hart.ctx.poison)
  have hrun := hnew (by decide +kernel) rfl (by decide +kernel)
  have hmark := csrw_vcfg_clears_vlMark
  rw [hrun] at hmark
  exact absurd hmark (by decide +kernel)

end Sys2Proof.Safety
end

section
namespace Sys2Proof.Safety

open Sys2Proof Sys2Proof.Machine

variable {s t : State} {i : Instr} {o : Host.Outcome State Fault Refusal} {p : Prop} [Decidable p]

/-! ### What answers a next state -/

/-- A step answers a next state: it stops at no fault and at no refusal. -/
def Answers (o : Host.Outcome State Fault Refusal) : Prop := ∃ t, o = .next t

theorem answers_next : Answers (.next t) := ⟨t, rfl⟩

theorem Answers.ite {o' : Host.Outcome State Fault Refusal} (h : Answers o) (h' : Answers o') : Answers (if p then o else o') := by
  split; exacts [h, h']

theorem answers_next_ite : Answers (if p then .next s else .next t) := answers_next.ite answers_next

/-! ### S-words: what stops one is a trap taken or a wait, and both are next states (R297, R298) -/

theorem answers_settle {r : Except Stop State} : Answers (s.settle r) := by
  unfold State.settle
  split
  · exact answers_next
  · exact answers_next
  · exact answers_next_ite

theorem answers_sword {f : State → Except Stop State} : Answers (s.sword f) := answers_settle

theorem answers_loadInto {d a : Reg} {im : BitVec 15} {n : Nat} {signed : Bool} : Answers (s.loadInto d a im n signed) := answers_sword

theorem answers_closing {f : State → Except Stop State} : Answers (s.closing f) := by
  unfold State.closing
  split
  · exact answers_next
  · exact answers_next
  · exact answers_settle

theorem answers_illegal {bad : Word} : Answers (s.illegal bad) := answers_next_ite

theorem Answers.checked (h : Answers o) : Answers (s.checked i o) := h.ite answers_illegal

theorem Answers.acting {fwToo : Bool} (h : Answers o) : Answers (s.acting i fwToo o) := answers_illegal.ite h

theorem Answers.clean {check : Except Trap Unit} (h : Answers o) : Answers (s.clean check o) := by
  unfold State.clean
  split
  · exact h
  · exact answers_sword

theorem Answers.unpoisoned {rs : List Reg} (h : Answers o) : Answers (s.unpoisoned rs o) := h.clean

theorem answers_branchOn {rs : List Reg} {c : Bool} {d : BitVec 15} : Answers (s.branchOn rs c d) := answers_next.unpoisoned

theorem answers_execJalr {d a : Reg} {n : BitVec 15} : Answers (execJalr d a n s) := (answers_next.ite answers_sword).unpoisoned

theorem answers_execLoopst {a : Reg} {sc : BitVec 5} {d : BitVec 15} : Answers (execLoopst a sc d s) :=
  ((answers_sword.ite answers_next_ite).unpoisoned.ite answers_next).checked

theorem answers_fetchBlock {a : Word} : Answers (s.fetchBlock a) :=
  (answers_sword.ite (answers_next.ite (answers_next.ite answers_next_ite))).clean

/-- ERET and WFM: a privileged word at user level traps, above it the word closes the strip (R177). -/
theorem answers_privileged {f g : State → Except Stop State} : Answers (if p then s.sword f else s.closing g) :=
  answers_sword.ite answers_closing

/-- An access to a CSR that its check refuses traps (R174). -/
theorem answers_csrTrap {t : Trap} {bad : Word} {f : State → Except Stop State} :
    Answers (if t.cause = .illegal then s.illegal bad else s.sword f) := answers_illegal.ite answers_sword

theorem answers_csrOp {a : Reg} {n : Nat} {f : Word → Word} : Answers (s.csrOp i a n f) := by
  unfold State.csrOp
  split
  · exact answers_csrTrap
  · exact answers_closing

theorem answers_execCsrw {a : Reg} {c : BitVec 12} : Answers (execCsrw a c s) := by
  unfold execCsrw
  exact answers_csrOp

theorem answers_execCsrs {a : Reg} {c : BitVec 12} : Answers (execCsrs a c s) := by
  unfold execCsrs
  exact answers_csrOp

theorem answers_execCsrc {a : Reg} {c : BitVec 12} : Answers (execCsrc a c s) := by
  unfold execCsrc
  exact answers_csrOp

theorem answers_execCsrr {d : Reg} {c : BitVec 12} : Answers (execCsrr d c s) := by
  unfold execCsrr
  extract_lets n
  split
  · exact answers_csrTrap
  · exact answers_next_ite

theorem answers_change {r : Except Stop State} : Answers (s.change r) := by
  unfold State.change
  split
  · exact answers_next
  · exact answers_next

/-! ### E-words: a trap of the block is taken, or its commits go on first (R297, R299) -/

theorem answers_ewordTrap {b : Block} {k : Trap} {bad : Word} : Answers (s.ewordTrap b k bad) := by
  unfold State.ewordTrap
  extract_lets at_
  refine answers_next.ite ?_
  split
  · exact answers_next
  · split
    · exact answers_next
    · exact answers_next

/-- Whatever an E-word's own effect answers, its frame turns it into a next state (R142). -/
theorem answers_eword {f : Block → EWord → Except Stop Done} : Answers (s.eword i f) := by
  unfold State.eword
  split
  · extract_lets bad
    refine answers_next.ite ?_
    split
    · exact answers_ewordTrap
    · refine answers_ewordTrap.ite (answers_next.ite ?_)
      split
      · split
        · exact answers_ewordTrap.ite answers_next
        · exact answers_next_ite
      · exact answers_next
      · exact answers_ewordTrap
  · exact answers_illegal

theorem answers_execVstop {w : EWord} : Answers (execVstop w s) := by
  unfold execVstop
  split
  · refine answers_next.ite (answers_ewordTrap.ite ?_)
    split
    · exact answers_next
    · exact answers_ewordTrap
    · exact answers_next
  · exact answers_illegal

theorem answers_execUnallocatedOpcode {w : BadWord} : Answers (execUnallocatedOpcode w s) := by
  unfold execUnallocatedOpcode
  split
  · exact answers_illegal
  · split
    · exact answers_next.ite answers_ewordTrap
    · exact answers_illegal

theorem answers_execFetchFault {k : Trap} : Answers (execFetchFault k s) := by
  unfold execFetchFault
  split
  · exact (answers_next.ite answers_ewordTrap).ite answers_next
  · exact answers_next

end Sys2Proof.Safety
end

section
namespace Sys2Proof.Safety

open Sys2Proof Sys2Proof.Machine

variable {s : State} {cid gid coid h n m q : Nat} {a : Agent}

/-! ### Events of the scheduler: an event that does not apply changes nothing, one that cannot act yet comes again (R298) -/

theorem answers_execHartSelect : Answers (execHartSelect cid h s) := by
  unfold execHartSelect
  extract_lets t
  refine answers_next.ite (answers_next.ite ?_)
  split
  · exact answers_next
  · exact answers_next

theorem answers_execContextFetch : Answers (execContextFetch cid gid coid s) := by
  unfold execContextFetch
  split
  · exact answers_next
  · refine answers_next.ite (answers_next.ite ?_)
    split
    · exact answers_next
    · extract_lets t
      refine answers_next.ite ?_
      split
      · exact answers_next
      · exact answers_next_ite

/-- The event reruns the VLDG to see whether it still waits (R130); as every E-word, that run answers a next state. -/
theorem answers_execStallTimeout : Answers (execStallTimeout cid h s) := by
  unfold execStallTimeout
  extract_lets t
  split
  next w _ _ =>
    obtain ⟨u, hu⟩ : Answers (execVldg w t) := answers_eword
    rw [hu]
    refine Answers.ite ?_ answers_next
    dsimp only
    split
    · exact answers_next
    · exact answers_next
  next => exact answers_next

theorem answers_execPreempt : Answers (execPreempt cid gid coid s) := by
  unfold execPreempt
  split
  · exact answers_next
  · refine answers_next.ite (answers_next.ite ?_)
    split
    · exact answers_next
    · exact answers_next

theorem answers_execRestore : Answers (execRestore cid gid coid s) := by
  unfold execRestore
  split
  · exact answers_next
  · refine answers_next.ite ?_
    split
    · exact answers_next
    · exact answers_next

theorem answers_execMove : Answers (execMove cid gid coid s) := by
  unfold execMove
  extract_lets to_
  split
  · exact answers_next
  · refine answers_next.ite (answers_next.ite ?_)
    split
    · exact answers_next
    · exact answers_next

theorem answers_execDiscard : Answers (execDiscard cid gid coid s) := by
  unfold execDiscard
  split
  · exact answers_next
  · exact answers_next_ite

theorem answers_execPendingTrapDeliver : Answers (execPendingTrapDeliver a s) := by
  unfold execPendingTrapDeliver
  extract_lets t
  split
  · split
    · exact answers_next_ite
    · exact answers_next
  · split
    · exact answers_next_ite
    · exact answers_next

theorem answers_execAsyncTrapTake : Answers (execAsyncTrapTake cid s) := by
  unfold execAsyncTrapTake
  split
  · exact answers_next
  · extract_lets t
    refine answers_next.ite (Answers.ite ?_ answers_next)
    split
    · exact answers_next
    · exact answers_next

theorem answers_execGangExit : Answers (execGangExit gid s) := by
  unfold execGangExit
  split
  · exact answers_next
  · exact answers_next_ite

theorem answers_execWatchdog : Answers (execWatchdog q n s) := by
  unfold execWatchdog
  split
  · exact answers_next
  · extract_lets limit
    split
    · exact answers_next
    · exact answers_next_ite

/-! ### Events of the partition controller and of the pages, copies and leases -/

theorem answers_execDrain : Answers (execDrain n s) := by
  unfold execDrain
  split
  · exact answers_next
  · exact (answers_next.ite answers_next_ite).ite answers_next_ite

theorem answers_execFreeze : Answers (execFreeze n m s) := by
  unfold execFreeze
  refine answers_next.ite ?_
  split
  · exact answers_next.ite answers_next_ite
  · exact answers_next_ite

theorem answers_execThaw {c : Bool} : Answers (execThaw n c s) := by
  unfold execThaw
  refine answers_next.ite ?_
  split
  · exact answers_next
  · exact answers_next_ite

theorem answers_execPageInComplete : Answers (execPageInComplete n s) := by
  unfold execPageInComplete
  split
  · exact answers_next
  · refine answers_next.ite ?_
    split
    · exact answers_next
    · exact answers_next

theorem answers_execCopyPieceLand {row skip len : Nat} : Answers (execCopyPieceLand n row skip len s) := by
  unfold execCopyPieceLand
  split
  case h_1 => exact answers_next
  case h_2 =>
    extract_lets busy
    refine answers_next.ite ?_
    split
    case h_1 => exact answers_next_ite
    case h_2 =>
      extract_lets r x y len
      refine Answers.ite ?remote ?here
      case remote =>
        split
        · exact answers_next
        · exact answers_next
      case here =>
        split
        · exact answers_next
        · split
          · exact answers_next_ite
          · extract_lets bs bad
            refine Answers.ite ?_ answers_next
            split
            · exact answers_next
            · exact answers_next

theorem answers_execCopyRewalk : Answers (execCopyRewalk n s) := by
  unfold execCopyRewalk
  split
  · exact answers_next
  · split
    · exact answers_execCopyPieceLand
    · exact answers_next

theorem answers_execCheckingPoint {rounds : List CheckRound} : Answers (execCheckingPoint a rounds s) := by
  unfold execCheckingPoint
  extract_lets t
  split
  · exact answers_next
  · exact answers_next_ite

theorem answers_execTestLease : Answers (execTestLease n m s) := by
  unfold execTestLease
  extract_lets r
  refine answers_next.ite (answers_next.ite ?_)
  split
  · exact answers_next
  · exact answers_next.ite answers_next_ite

theorem answers_execTestPassEnd {c : Bool} : Answers (execTestPassEnd n m c s) := by
  unfold execTestPassEnd
  split
  · exact answers_next
  · exact answers_next.ite (answers_next.ite (answers_next_ite.ite answers_next))

theorem answers_execRowSpareCopy {bad : List Nat} {c : Bool} : Answers (execRowSpareCopy n m bad c s) := by
  unfold execRowSpareCopy
  refine answers_next.ite ?_
  split
  · exact answers_next
  · exact answers_next_ite

/-! ### Events of the fabric, the messages and the management interface -/

theorem answers_spdm {port : Nat} {ok : Bool} : Answers (s.spdm port n ok) := answers_next_ite

theorem answers_execSensorRead : Answers (execSensorRead n s) := by
  unfold execSensorRead
  split
  · exact answers_next
  · exact answers_next

theorem answers_execSensorSample : Answers (execSensorSample n m s) :=
  answers_next.ite (answers_next.ite (answers_next.ite (answers_next.ite answers_next_ite)))

theorem answers_execOverflowMove : Answers (execOverflowMove cid s) := by
  unfold execOverflowMove
  split
  · exact answers_next
  · refine answers_next.ite ?_
    split
    · exact answers_next
    · exact answers_next

theorem answers_execGeneratedMsgPlace : Answers (execGeneratedMsgPlace cid s) := by
  unfold execGeneratedMsgPlace
  split
  · exact answers_next
  · split
    all_goals exact answers_next

theorem answers_execMessageResend : Answers (execMessageResend n s) := by
  unfold execMessageResend
  extract_lets all
  split
  · exact answers_next
  · split
    · exact answers_next
    · exact answers_next

theorem answers_execHandlerCreate : Answers (execHandlerCreate cid s) := by
  unfold execHandlerCreate
  extract_lets c
  split
  · exact answers_next
  · extract_lets part
    split
    · exact answers_next
    · split
      · exact answers_next
      · refine answers_next.ite ?_
        extract_lets
        split
        · exact answers_next
        · exact answers_next

theorem answers_execRemoteStoreSend : Answers (execRemoteStoreSend cid s) := by
  unfold execRemoteStoreSend
  extract_lets heads
  split
  · exact answers_next
  · exact answers_next

theorem answers_execCombineFlushTimeout : Answers (execCombineFlushTimeout cid n s) := by
  unfold execCombineFlushTimeout
  split
  · exact answers_next
  · exact answers_next_ite

theorem answers_execRemoteAtomicRequest {r : Req} : Answers (execRemoteAtomicRequest r s) := by
  unfold execRemoteAtomicRequest
  split
  all_goals exact answers_next

theorem answers_execRemoteResponse {p : Resp} : Answers (execRemoteResponse n p s) := by
  unfold execRemoteResponse
  split
  · exact answers_next
  · exact answers_next

theorem answers_execRemoteAcknowledgement : Answers (execRemoteAcknowledgement n s) := by
  unfold execRemoteAcknowledgement
  split
  · exact answers_next
  · exact answers_next

/-- A refused request traps at its instruction or its coroutine, ends its copy, or goes nowhere (R223 to R225, R251, R399). -/
theorem answers_execRemoteNack : Answers (execRemoteNack n s) := by
  unfold execRemoteNack
  split
  · exact answers_next
  · refine answers_next.ite ?_
    extract_lets gone t
    split
    -- what waited, copied or was pushed is found and ended, or is gone
    case h_1 | h_2 | h_3 | h_4 | h_8 | h_9 | h_14 =>
      split
      · exact answers_next
      · exact answers_next
    -- a full/empty word of an agent, and a registration of a launch processor or of coroutines
    case h_5 | h_12 => exact answers_next_ite
    -- a remote vector load traps as its E-word does
    case h_7 =>
      split
      · split
        · exact answers_ewordTrap
        · exact answers_next
      · exact answers_next
    -- a coroutine takes the trap, or a notice is dropped
    case h_6 | h_10 | h_11 | h_13 => exact answers_next

end Sys2Proof.Safety
end

section
namespace Sys2Proof.Safety

open Sys2Proof Sys2Proof.Machine

variable {s : State}

/-! ### Every instruction and every step -/

/-- EVERY INSTRUCTION AND EVERY EVENT answers a next state: one line per shape of arm. -/
theorem answers_exec (i : Instr) (s : State) : Answers (exec i s) := by
  unfold exec
  cases i with
  | add | sub | mul | mulh | mulhn | div | divn | rem | remn | and | or | xor | sll | srl | sra | slli | srli | srai | slt | sltn | min
   | max | minn | maxn | clz | ctz | popc | addi | andi | ori | xori | slti | lui | aipc | jal | settl | fmin | fmax | fcmp => exact answers_next
  | ldB | ldBn | ldH | ldHn | ldW | ldWn | ldD => exact answers_loadInto
  | stB | stH | stW | stD | stripend | scall | trap => exact answers_closing
  | beq | bne | blt | bge | bltn | bgen | bsa => exact answers_branchOn
  | loopv => exact answers_next.clean
  | jalr => exact answers_execJalr
  | loopst => exact answers_execLoopst
  | vfetch => exact answers_fetchBlock
  | vfetchReg => exact answers_fetchBlock.unpoisoned
  | eret | wfm => exact answers_privileged
  | csrr => exact answers_execCsrr
  | csrw => exact answers_execCsrw
  | csrs => exact answers_execCsrs
  | csrc => exact answers_execCsrc
  | fadd | fsub | fmul | fdiv | fsqrt | fcvt | fcvtToInt | fma => exact answers_next.checked
  | setvl | cp | rget | rput | ratom | sinit | expect | arrive | sgen | tkmake | ldfe | stfe | feset | feclr | amo | fenceRel | fenceAcq
   | fenceAr | fenceSc | lsync => exact answers_closing.checked
  | cpG | cpS | msend => exact (answers_illegal.ite answers_closing).checked
  | await | awaitany | spawn | yield | cexit | galloc | gfree | gdecl | gstep | gwait | gdrop => exact answers_closing.acting.checked
  | vnop | vadd | vsub | vmul | vfma | vfms | vfnma | vdiv | vsqrt | vrsqrt | vrcp | vexp2 | vlog2 | vmulh | vsadd | vssub | vmin | vmax
   | vabs | vneg | vand | vor | vxor | vnot | vclz | vpopc | vshl | vshr | vsra | vcmp | kand | kor | kxor | knot | ksbf | ksif | ksof
   | kpopc | kfirst | vmerge | vmergeF | vslideup | vslidedn | vid | vbcast | vins | vperm | vcompress | vexpand | viota | vmovx | vredsum
   | vredmax | vredmin | vscanAdd | vscanMax | vcvt | vscale | vld | vlds | vldx | vldff | vldg | vpref | vst | vsts | vstx | vstg
   | vsqCommit | vsqDrop | mstart | mstop | mzero | opa | ops | opaSp | mld | mst | mlatch | mrot | mmovV | vmovM | mcvt => exact answers_eword
  | vstop => exact answers_execVstop
  | unallocatedOpcode => exact answers_execUnallocatedOpcode
  | fetchFault => exact answers_execFetchFault
  | vcfgWrite | slpartWrite | inboxcfgWrite | ovfcfgWrite | ovfbaseWrite | inboxdropHead | registerWrite => exact answers_change
  | wakeNotice | waiterReread | contribute | waitSignalled | heldContributionRewalk | priorityPromote | pageInFrameRetry | messageArrival
   | remoteRequest | vectorRequest | keyUpdate | hostWrite | lockPort | startPort | stopPort | peerWrite | flitReceive | linkRetrain
   | hostLinkDown | powerOn | resetModule | firmwareUpdateWrite | logRead | podKeyProvision | eidAssign | fmaskWrite | qbmbaseWrite
   | wctlWrite | fevqRead | ftcmpWrite => exact answers_next
  | activate | resetPartition | release | wfmResume | quantumExpire | forcedRollback | preemptRollback | mrotWithdraw | timer | scoreDecay
   | allowanceGrant | allowanceReservedGrant | hostRead | hostLinkUp | commitSvn | creditGrant | creditFloor | walkerTurn =>
    exact answers_next_ite
  | quantumSwitch | skinkWriteLand => exact answers_next.ite answers_next_ite
  | preemptTake => exact answers_next.ite (answers_next.ite answers_next_ite)
  | hartSelect => exact answers_execHartSelect
  | contextFetch => exact answers_execContextFetch
  | stallTimeout => exact answers_execStallTimeout
  | preempt => exact answers_execPreempt
  | restore => exact answers_execRestore
  | move => exact answers_execMove
  | discard => exact answers_execDiscard
  | pendingTrapDeliver => exact answers_execPendingTrapDeliver
  | asyncTrapTake => exact answers_execAsyncTrapTake
  | gangExit => exact answers_execGangExit
  | watchdog => exact answers_execWatchdog
  | drain => exact answers_execDrain
  | freeze => exact answers_execFreeze
  | thaw => exact answers_execThaw
  | pageInComplete => exact answers_execPageInComplete
  | copyPieceLand => exact answers_execCopyPieceLand
  | copyRewalk => exact answers_execCopyRewalk
  | checkingPoint => exact answers_execCheckingPoint
  | testLease => exact answers_execTestLease
  | testPassEnd => exact answers_execTestPassEnd
  | rowSpareCopy => exact answers_execRowSpareCopy
  | getVersion | getCapabilities | negotiateAlgorithms | getDigests | getCertificate | challenge | getMeasurements | keyExchange
   | finish => exact answers_spdm
  | sensorRead => exact answers_execSensorRead
  | sensorSample => exact answers_execSensorSample
  | overflowMove => exact answers_execOverflowMove
  | generatedMsgPlace => exact answers_execGeneratedMsgPlace
  | messageResend => exact answers_execMessageResend
  | handlerCreate => exact answers_execHandlerCreate
  | remoteStoreSend => exact answers_execRemoteStoreSend
  | combineFlushTimeout => exact answers_execCombineFlushTimeout
  | remoteAtomicRequest => exact answers_execRemoteAtomicRequest
  | remoteResponse => exact answers_execRemoteResponse
  | remoteAcknowledgement => exact answers_execRemoteAcknowledgement
  | remoteNack => exact answers_execRemoteNack

theorem answers_step (s : State) : Answers (step s) := by
  unfold Machine.step
  split
  next i t _ => exact answers_exec i t
  next => exact answers_next

/-- Settles O54: a step executes a chosen instruction or event, which answers a next state as every one does, or lets time pass. -/
theorem noStepStops : Obligations.NoStepStops := fun s => answers_step s

end Sys2Proof.Safety
end

section
namespace Sys2Proof.Safety

open Sys2Proof Sys2Proof.Machine Sys2Proof.Tests

variable {s : State} {v : Word} {c : Ctx} {vn : Nat}

/-! ### VCFG_WRITE of a new VN -/

/-- With nothing in flight, VCFG_WRITE of a new VN on a compute core is the reshape and nothing else (R47, R53). -/
theorem exec_vcfgWrite_reshape (hb : s.hart.blocks = []) (hc : s.regCopies = []) (hf : s.isFw = false) (hv : v.toNat % 4 ≠ s.hart.ctx.vn) :
    exec (.vcfgWrite v) s = .next (s.setCtx (s.hart.ctx.reshape (v.toNat % 4))) := by
  have hwrite : s.writeVcfg v = .ok (s.setCtx (s.hart.ctx.reshape (v.toNat % 4))) := by simp [State.writeVcfg, hb, hc, hf, hv]
  change s.change (s.writeVcfg v) = _
  rw [hwrite]
  rfl

/-- The reshape, which sets VL to 0, ends the mark of a VL computed from a poisoned register (R47, R354). -/
theorem vlMark_not_mem_reshape : vlMark ∉ (c.reshape vn).poison := by simp [Ctx.reshape]

/-- Refutes O11: where VL is marked poisoned, VCFG_WRITE of the new VN 3 ends that mark with VL, while the statement drops only the marks of
the vector and mask registers (kinds 0 and 1) and so keeps VL's (kind 7). -/
theorem not_registerWriteSteps : ¬ Obligations.RegisterWriteSteps := by
  unfold Obligations.RegisterWriteSteps
  intro h
  obtain ⟨hreshape, _⟩ := h vlMarked 3 0 0 0
  have hb : vlMarked.hart.blocks = [] := rfl
  have hc : vlMarked.regCopies = [] := rfl
  have hf : vlMarked.isFw = false := rfl
  have hv : (3 : Word).toNat % 4 ≠ vlMarked.hart.ctx.vn := (by decide : (3 : Word).toNat % 4 ≠ 0)
  have hsame := (exec_vcfgWrite_reshape hb hc hf hv).symm.trans (hreshape hb hc hf hv)
  have hpoison : (vlMarked.hart.ctx.reshape ((3 : Word).toNat % 4)).poison =
      vlMarked.hart.ctx.poison.filter fun r => r.kind != 0 && r.kind != 1 :=
    congrArg (fun t : State => t.hart.ctx.poison) (Host.Outcome.next.inj hsame)
  have hkept : vlMark ∈ vlMarked.hart.ctx.poison.filter fun r => r.kind != 0 && r.kind != 1 :=
    List.mem_filter.mpr ⟨List.mem_singleton.mpr rfl, by decide⟩
  exact vlMark_not_mem_reshape (hpoison ▸ hkept)

end Sys2Proof.Safety
end
